-- ==== Sys2Proof/Word.lean ====
section
/-! DEFINITION. Words and bytes: the bit vectors the spec gives the machine (00_scope.md R9). -/

namespace Sys2Proof

/-- One byte of memory, or one response byte (R63, R109). -/
abbrev Byte := BitVec 8

/-- One whole facade register, or one byte address (R60, R63). -/
abbrev Word := BitVec 32

/-- One command word, one result or one clock value (R100, R22, R48). -/
abbrev DWord := BitVec 64

end Sys2Proof
end

