-- ==== Sys2Proof/Syntax.lean ====
section
/-! DEFINITION. The ten operations and the commands of the engine (30_encoding.md R103). -/

namespace Sys2Proof

/-- The ten operations, in the order of the opcode map (R103): what the sequencer position SEQ names. -/
inductive Op where
  | beginInit | canStart | sendFrame | receiveResponse | receiveFrame
  | sendResponse | handleCollision | backOff | getMaxAttempts | getReceiveTime
deriving DecidableEq, Repr, Inhabited

/-- A command: one constructor per row of the opcode table, with its operands (R103 to R106). -/
inductive Instr where
  /-- BEGIN startup_id (R130). -/
  | beginInit (startupId : BitVec 8)
  /-- CAN_START (R140). -/
  | canStart
  /-- SEND_FRAME buffer, length (R160). -/
  | sendFrame (buffer : BitVec 32) (length : BitVec 16)
  /-- RECEIVE_RESPONSE (R176). -/
  | receiveResponse
  /-- RECEIVE_FRAME buffer, max_length (R200). -/
  | receiveFrame (buffer : BitVec 32) (maxLength : BitVec 16)
  /-- SEND_RESPONSE byte (R178). -/
  | sendResponse (byte : BitVec 8)
  /-- HANDLE_COLLISION (R143). -/
  | handleCollision
  /-- BACK_OFF attempts (R141). -/
  | backOff (attempts : BitVec 8)
  /-- GET_MAX_ATTEMPTS (R215). -/
  | getMaxAttempts
  /-- GET_RECEIVE_TIME (R216). -/
  | getReceiveTime
deriving DecidableEq, Repr, Inhabited

/-- The operation a command asks for (R103). -/
def Instr.op : Instr → Op
  | .beginInit _ => .beginInit
  | .canStart => .canStart
  | .sendFrame _ _ => .sendFrame
  | .receiveResponse => .receiveResponse
  | .receiveFrame _ _ => .receiveFrame
  | .sendResponse _ => .sendResponse
  | .handleCollision => .handleCollision
  | .backOff _ => .backOff
  | .getMaxAttempts => .getMaxAttempts
  | .getReceiveTime => .getReceiveTime

/-- The mnemonic of an operation (R103, R114). -/
def Op.mnemonic : Op → String
  | .beginInit => "BEGIN"
  | .canStart => "CAN_START"
  | .sendFrame => "SEND_FRAME"
  | .receiveResponse => "RECEIVE_RESPONSE"
  | .receiveFrame => "RECEIVE_FRAME"
  | .sendResponse => "SEND_RESPONSE"
  | .handleCollision => "HANDLE_COLLISION"
  | .backOff => "BACK_OFF"
  | .getMaxAttempts => "GET_MAX_ATTEMPTS"
  | .getReceiveTime => "GET_RECEIVE_TIME"

/-- The operation a mnemonic, or one of the two aliases the assembler accepts, names (R114; 90_conflicts.md C1). -/
def Op.named : String → Option Op
  | "BEGIN" | "INITIALIZE" => some .beginInit
  | "CAN_START" | "CHANNEL_IS_FREE" => some .canStart
  | "SEND_FRAME" => some .sendFrame
  | "RECEIVE_RESPONSE" => some .receiveResponse
  | "RECEIVE_FRAME" => some .receiveFrame
  | "SEND_RESPONSE" => some .sendResponse
  | "HANDLE_COLLISION" => some .handleCollision
  | "BACK_OFF" => some .backOff
  | "GET_MAX_ATTEMPTS" => some .getMaxAttempts
  | "GET_RECEIVE_TIME" => some .getReceiveTime
  | _ => none

end Sys2Proof
end

