-- ==== Sys2Proof/Machine/Types.lean ====
section
/-! DEFINITION. The plain data State is made of: sequencer position, command latch, scratch registers,
register names, transfers, the moves of the six agents and the events of a run. -/

namespace Sys2Proof.Machine

/-- SEQ, the sequencer position (10_state.md R25): IDLE, or an operation and the number of its next access. -/
inductive Seq where
  | idle
  | phase (op : Op) (p : Fin 16)
deriving DecidableEq, Repr, Inhabited

/-- The command latch: OP, A1 and A0 of the command in flight (R23). -/
structure Latch where
  op : BitVec 4
  a1 : BitVec 16
  a0 : BitVec 32
deriving DecidableEq, Repr, Inhabited

/-- The sequencer's scratch registers (R26): T0 a start time, CNT the status reads of the current bounded poll,
REP the repetition count, DLY a delay, S the last status word read. `v` holds the word RECEIVE_RESPONSE reads
from TC.RX_DATA at P8 until P9 returns its low byte (43_response_exchange.md R176; log 37). -/
structure Scratch where
  t0  : BitVec 64
  cnt : Nat
  rep : Nat
  dly : BitVec 40
  s   : BitVec 32
  v   : BitVec 32
deriving DecidableEq, Repr, Inhabited

/-- The thirteen registers of the facade by name (R31, R42). -/
inductive Reg where
  | activateRx | preambleLen | padLen | dataBitWidth | acceptance | enable | axisStatus | rxData
  | btSrc | btDst | btLen | btStatus | btDone
deriving DecidableEq, Repr, Inhabited

/-- The registers ENGINE reads (R31, R42): TC.STATUS, TC.RX_DATA, BT.DONE. -/
inductive ReadReg where
  | status | rxData | done
deriving DecidableEq, Repr, Inhabited

/-- The registers ENGINE writes (R31, R42); `txCmd` is the write side of the axis/status word (R38). -/
inductive WriteReg where
  | activateRx | preambleLen | padLen | dataBitWidth | acceptance | enable | txCmd | rxData
  | src | dst | len
deriving DecidableEq, Repr, Inhabited

/-- The six TC registers only ENGINE writes while LINE's contract holds (60_exceptions.md R237). -/
inductive ConfigReg where
  | activateRx | preambleLen | padLen | dataBitWidth | acceptance | enable
deriving DecidableEq, Repr, Inhabited

/-- One submitted bulk transfer (R43). -/
structure Transfer where
  src : BitVec 32
  dst : BitVec 32
  len : BitVec 16
deriving DecidableEq, Repr, Inhabited

/-- Where one byte of the active transfer stands (60_exceptions.md R241): not read yet, read and not yet
written, written or handed over. -/
inductive ByteState where
  | waiting
  | held (b : BitVec 8)
  | done
deriving DecidableEq, Repr, Inhabited

/-- The active transfer and the state of each of its bytes (R240, R241). -/
structure Active where
  xfer  : Transfer
  bytes : List ByteState
deriving DecidableEq, Repr, Inhabited

/-- What LINE sets DATA_READY for (60_exceptions.md R238): a whole frame it has staged in the capture buffer, or a response
byte in TC.RX_DATA, or anything else R235 lets it be. ENGINE sees the one flag and not the cause (log 38). -/
inductive ReadyCause where
  | frame
  | response
deriving DecidableEq, Repr, Inhabited

/-- A move of LINE (R235 to R238). -/
inductive LineMove where
  /-- LINE shows its progress: it sets or clears SEND_DONE, SENDING and RECEIVING as it sees fit, and the
  bits of the status word that have no meaning (R236, U8). -/
  | flags (sendDone sending receiving : Bool) (rest : BitVec 28)
  /-- LINE sets DATA_READY, whatever it is for (R238, R274). -/
  | ready (cause : ReadyCause)
  /-- LINE clears DATA_READY: only where its contract does not hold (R235, R238). -/
  | unready
  /-- LINE changes TC.RX_DATA (R235, R40). -/
  | response (v : BitVec 32)
  /-- The capture engine receives one more byte of a frame, which is lost while capture is off (R49 (b), R278). -/
  | hear (b : BitVec 8)
  /-- The capture engine drops its partly received frame. -/
  | forget
  /-- LINE stages the partly received frame in the capture buffer, first byte lowest (R47, R67). -/
  | stageFrame
  /-- LINE writes one byte of the capture buffer (R235). -/
  | stage (i : Nat) (b : BitVec 8)
  /-- The first command word of the transmit path leaves (R77). -/
  | sendWord
  /-- The first frame byte of the transmit path leaves (R77). -/
  | sendByte
  /-- LINE changes a configuration register: only where its contract does not hold (R235, R237). -/
  | config (r : ConfigReg) (v : BitVec 32)
deriving DecidableEq, Repr, Inhabited

/-- A move of BULK (R240, R241). -/
inductive BulkMove where
  /-- BULK takes the head of its queue. -/
  | start
  /-- BULK reads byte `i` of the active transfer's source. -/
  | read (i : Nat)
  /-- BULK writes byte `i` to the destination, or hands it to the transmit path; the last one finishes the transfer. -/
  | write (i : Nat)
  /-- The bits of BT.STATUS and BT.DONE[31:1], which have no meaning, change (R44, U8). -/
  | noise (status : BitVec 32) (doneRest : BitVec 31)
deriving DecidableEq, Repr, Inhabited

/-- A move of one of the agents (00_scope.md R6). -/
inductive Move where
  /-- ENGINE makes its next access (R13). -/
  | engine
  /-- HOST presents a command word on the command port (R27). -/
  | issue (w : BitVec 64)
  /-- HOST writes one byte of MEM (R242). -/
  | hostWrite (a : BitVec 32) (b : BitVec 8)
  | line (m : LineMove)
  | bulk (m : BulkMove)
  /-- CLOCK raises NOW by `d` microseconds (R230). -/
  | clock (d : Nat)
  /-- The reset input is asserted (70_reset_and_hazards.md R260, R263). -/
  | reset
deriving DecidableEq, Repr, Inhabited

/-- What a run shows (R14): commands issued, register accesses, completions; and the resets between them. -/
inductive Event where
  | issued (w : BitVec 64)
  | read (r : ReadReg) (v : BitVec 32)
  | wrote (r : WriteReg) (v : BitVec 32)
  | completed (v : BitVec 64)
  | reset
deriving DecidableEq, Repr, Inhabited

end Sys2Proof.Machine
end

