-- ==== Sys2Proof/Config.lean ====
section
/-! DEFINITION. What an implementation fixes (00_scope.md R7), the example configuration X1 of
95_test_vectors.md, and the free values. The checks of R8 are in Machine/Platform.lean. -/

namespace Sys2Proof

/-- The thirteen register offsets OFF_* with the spec's defaults (10_state.md R31, R42). -/
structure Offsets where
  activateRx   : BitVec 32 := 0x00
  preambleLen  : BitVec 32 := 0x04
  padLen       : BitVec 32 := 0x08
  dataBitWidth : BitVec 32 := 0x0C
  acceptance   : BitVec 32 := 0x10
  enable       : BitVec 32 := 0x14
  axisStatus   : BitVec 32 := 0x18
  rxData       : BitVec 32 := 0x1C
  btSrc        : BitVec 32 := 0x00
  btDst        : BitVec 32 := 0x04
  btLen        : BitVec 32 := 0x08
  btStatus     : BitVec 32 := 0x0C
  btDone       : BitVec 32 := 0x10
deriving DecidableEq, Repr

/-- The implementation parameters of R7, which "are arguments of the model". A parameter whose value R7
gives has that value as its default; RESPONSE_POLL_BOUND_US, which is not open, is
`Machine.responsePollBoundUs`; CYCLES_PER_US and CYCLES_PER_MS are derived in Machine/Platform.lean. -/
structure Config where
  mode                : Nat
  bitWidth            : BitVec 16
  bitSpacer           : BitVec 16
  /-- Read by no rule (R7). -/
  acceptanceWindow    : BitVec 16
  /-- Read by no rule (R7). -/
  readDelay           : BitVec 16
  latency             : BitVec 16
  responseOffset      : BitVec 16
  presetPreamble      : BitVec 32
  presetPad           : BitVec 32
  presetDataWidth     : BitVec 32
  presetAcceptance    : BitVec 32
  clockHz             : Nat
  degree              : Nat := 4
  maxAttempts         : BitVec 16
  receiveTimeUs       : BitVec 32
  collisionDelayMaxUs : BitVec 32
  maxPacketLen        : BitVec 16
  pollBound           : Nat
  startupUnitUs       : BitVec 32 := 1000
  /-- FAIL (92_eei_decisions.md D5). -/
  fail                : BitVec 16 := 0xFFFF
  tcBase              : BitVec 32
  btBase              : BitVec 32
  off                 : Offsets := {}
  captureAddr         : BitVec 32
  btQueueDepth        : Nat
  respReadClearsReady : Bool
deriving DecidableEq, Repr

/-- Configuration X1 of 95_test_vectors.md section 0: the spec's own example, which `State.reset` takes
(DESIGN CHOICE, log 3). No statement rests on it. -/
def Config.x1 : Config where
  mode := 1
  bitWidth := 40
  bitSpacer := 112
  acceptanceWindow := 56
  readDelay := 4
  latency := 13
  responseOffset := 20
  presetPreamble := 0x11
  presetPad := 0x22
  presetDataWidth := 0x33
  presetAcceptance := 0x44
  clockHz := 20000000
  maxAttempts := 20
  receiveTimeUs := 1000
  collisionDelayMaxUs := 16
  maxPacketLen := 50
  pollBound := 4
  tcBase := 0x20000000
  btBase := 0x20001000
  captureAddr := 0x20002000
  btQueueDepth := 2
  respReadClearsReady := true

/-- FREE VALUE (log 20): what RNG answers to the draw with this count, before it is brought into the range
of the draw (60_exceptions.md R246). Nothing constrains it. -/
opaque Config.freeDraw : Nat → Nat

/-- FREE VALUE (log 6): what the scratch registers hold after a completion or a reset (10_state.md R26).
Nothing constrains it. -/
opaque Config.freeScratch : Nat → Machine.Scratch

/-- FREE VALUE (log 4): which agent moves, and how, once the moves already known are used up
(00_scope.md R13, 60_exceptions.md R235). Nothing constrains it. -/
opaque Config.freeMove : Nat → Machine.Move

end Sys2Proof
end

