-- ==== Sys2Proof/Decode.lean ====
section
/-! DEFINITION. The command word (30_encoding.md R100 to R107): field extraction, the decoder, total on
64-bit words, and the encoder. -/

namespace Sys2Proof

/-- Why a word is RESERVED (R102). -/
inductive Reserved where
  /-- RSV is not 0. -/
  | rsvNotZero
  /-- OP is 0 or 11 to 15. -/
  | opReserved
  /-- An operand field that must be 0 is not 0 (formats C0 and C8). -/
  | operandNotZero
deriving DecidableEq, Repr

/-- OP[63:60] (R101). -/
def fieldOp (w : DWord) : BitVec 4 := w.extractLsb' 60 4

/-- RSV[59:48] (R101). -/
def fieldRsv (w : DWord) : BitVec 12 := w.extractLsb' 48 12

/-- A1[47:32] (R101). -/
def fieldA1 (w : DWord) : BitVec 16 := w.extractLsb' 32 16

/-- A0[31:0] (R101). -/
def fieldA0 (w : DWord) : BitVec 32 := w.extractLsb' 0 32

/-- Format C0: no operand, A1 = A0 = 0 (R102, R104). -/
def formC0 (a1 : BitVec 16) (a0 : BitVec 32) (i : Instr) : Except Reserved Instr :=
  if a1 = 0 ∧ a0 = 0 then .ok i else .error .operandNotZero

/-- Format C8: the operand V = A1[7:0], A1[15:8] = 0 and A0 = 0 (R102, R105). -/
def formC8 (a1 : BitVec 16) (a0 : BitVec 32) (i : BitVec 8 → Instr) : Except Reserved Instr :=
  if a1.extractLsb' 8 8 = 0 ∧ a0 = 0 then .ok (i (a1.extractLsb' 0 8)) else .error .operandNotZero

/-- The command that the fields OP, A1 and A0 stand for (R102, R103). -/
def decodeFields (op : BitVec 4) (a1 : BitVec 16) (a0 : BitVec 32) : Except Reserved Instr :=
  match op.toNat with
  | 1  => formC8 a1 a0 .beginInit
  | 2  => formC0 a1 a0 .canStart
  | 3  => .ok (.sendFrame a0 a1)
  | 4  => formC0 a1 a0 .receiveResponse
  | 5  => .ok (.receiveFrame a0 a1)
  | 6  => formC8 a1 a0 .sendResponse
  | 7  => formC0 a1 a0 .handleCollision
  | 8  => formC8 a1 a0 .backOff
  | 9  => formC0 a1 a0 .getMaxAttempts
  | 10 => formC0 a1 a0 .getReceiveTime
  | _  => .error .opReserved

/-- The command a 64-bit word is, or why it is RESERVED (R102). -/
def decode (w : DWord) : Except Reserved Instr :=
  if fieldRsv w = 0 then decodeFields (fieldOp w) (fieldA1 w) (fieldA0 w) else .error .rsvNotZero

/-- The operation number (R103). -/
def Op.number : Op → BitVec 4
  | .beginInit => 1
  | .canStart => 2
  | .sendFrame => 3
  | .receiveResponse => 4
  | .receiveFrame => 5
  | .sendResponse => 6
  | .handleCollision => 7
  | .backOff => 8
  | .getMaxAttempts => 9
  | .getReceiveTime => 10

/-- A1 of a command's word (R103, R105, R106). -/
def Instr.a1 : Instr → BitVec 16
  | .beginInit v => v.zeroExtend 16
  | .sendFrame _ l => l
  | .receiveFrame _ l => l
  | .sendResponse v => v.zeroExtend 16
  | .backOff v => v.zeroExtend 16
  | .canStart => 0
  | .receiveResponse => 0
  | .handleCollision => 0
  | .getMaxAttempts => 0
  | .getReceiveTime => 0

/-- A0 of a command's word (R103, R106). -/
def Instr.a0 : Instr → BitVec 32
  | .sendFrame b _ => b
  | .receiveFrame b _ => b
  | .beginInit _ => 0
  | .sendResponse _ => 0
  | .backOff _ => 0
  | .canStart => 0
  | .receiveResponse => 0
  | .handleCollision => 0
  | .getMaxAttempts => 0
  | .getReceiveTime => 0

/-- The word of a command: OP, RSV = 0, A1, A0 (R101, R104 to R106). -/
def encode (i : Instr) : DWord :=
  (i.op.number ++ (0 : BitVec 12)) ++ (i.a1 ++ i.a0)

/-- One operand below 256 (R105). -/
def assembleC8 (i : BitVec 8 → Instr) : List Nat → Option Instr
  | [v] => if v < 2 ^ 8 then some (i (BitVec.ofNat 8 v)) else none
  | _ => none

/-- A buffer address below 2^32 and then a length below 2^16 (R106). -/
def assembleCB (i : BitVec 32 → BitVec 16 → Instr) : List Nat → Option Instr
  | [b, l] => if b < 2 ^ 32 ∧ l < 2 ^ 16 then some (i (BitVec.ofNat 32 b) (BitVec.ofNat 16 l)) else none
  | _ => none

/-- No operand (R104). -/
def assembleC0 (i : Instr) : List Nat → Option Instr
  | [] => some i
  | _ => none

/-- The command an operation and its operands, in the order of R103, stand for. -/
def assembleOp : Op → List Nat → Option Instr
  | .beginInit => assembleC8 .beginInit
  | .canStart => assembleC0 .canStart
  | .sendFrame => assembleCB .sendFrame
  | .receiveResponse => assembleC0 .receiveResponse
  | .receiveFrame => assembleCB .receiveFrame
  | .sendResponse => assembleC8 .sendResponse
  | .handleCollision => assembleC0 .handleCollision
  | .backOff => assembleC8 .backOff
  | .getMaxAttempts => assembleC0 .getMaxAttempts
  | .getReceiveTime => assembleC0 .getReceiveTime

/-- The assembler: a mnemonic or alias and its operands (R114). -/
def assemble (name : String) (operands : List Nat) : Option Instr :=
  (Op.named name).bind (fun o => assembleOp o operands)

/-- What the decoder reads from an instruction whose bits are `w`; every bit above `nbits` is 0. -/
def decodeTableWord (nbits w : Nat) : Option Instr :=
  match decode (BitVec.ofNat 64 (w % 2 ^ nbits)) with
  | .ok i => some i
  | .error _ => none

end Sys2Proof
end

