-- ==== Sys2Proof/WellFormed.lean ====
section
/-! DEFINITION. What makes a command word an operation, row by row of the opcode table, and what keeps a
command inside the caller's contract. Every term of `Instr` is a command the port takes: its operands
have the exact widths of the encoding, and the engine checks no operand (42_frame_send.md R162, D39). -/

namespace Sys2Proof

/-- The mask of an operation's row of opcode_table.json (30_encoding.md R102). -/
def Op.mask : Op → BitVec 64
  | .beginInit => 0xFFFFFF00FFFFFFFF
  | .canStart => 0xFFFFFFFFFFFFFFFF
  | .sendFrame => 0xFFFF000000000000
  | .receiveResponse => 0xFFFFFFFFFFFFFFFF
  | .receiveFrame => 0xFFFF000000000000
  | .sendResponse => 0xFFFFFF00FFFFFFFF
  | .handleCollision => 0xFFFFFFFFFFFFFFFF
  | .backOff => 0xFFFFFF00FFFFFFFF
  | .getMaxAttempts => 0xFFFFFFFFFFFFFFFF
  | .getReceiveTime => 0xFFFFFFFFFFFFFFFF

/-- The match value of an operation's row of opcode_table.json (R102). -/
def Op.pattern : Op → BitVec 64
  | .beginInit => 0x1000000000000000
  | .canStart => 0x2000000000000000
  | .sendFrame => 0x3000000000000000
  | .receiveResponse => 0x4000000000000000
  | .receiveFrame => 0x5000000000000000
  | .sendResponse => 0x6000000000000000
  | .handleCollision => 0x7000000000000000
  | .backOff => 0x8000000000000000
  | .getMaxAttempts => 0x9000000000000000
  | .getReceiveTime => 0xA000000000000000

/-- The word is operation `o` by the opcode table: (w AND mask) = match (R102). -/
def matchesRow (o : Op) (w : DWord) : Bool := w &&& o.mask == o.pattern

/-- The operations, in the order of the table (R103). -/
def allOps : List Op :=
  [.beginInit, .canStart, .sendFrame, .receiveResponse, .receiveFrame,
   .sendResponse, .handleCollision, .backOff, .getMaxAttempts, .getReceiveTime]

/-- The word is not RESERVED (R102). -/
def wordWellFormed (w : DWord) : Bool := allOps.any (fun o => matchesRow o w)

/-- The command keeps the operand bounds HOST owes (42_frame_send.md R162, 93 U1 and U6; 60_exceptions.md R242).
The engine runs a command that does not: what then has no meaning is the transfer it submits. -/
def withinContract (maxPacketLen : BitVec 16) : Instr → Bool
  | .sendFrame _ length => decide (1 ≤ length.toNat) && decide (length.toNat ≤ maxPacketLen.toNat)
  | .receiveFrame _ maxLength =>
      decide (1 ≤ maxLength.toNat) && decide (maxLength.toNat ≤ maxPacketLen.toNat)
  | .beginInit _ => true
  | .canStart => true
  | .receiveResponse => true
  | .sendResponse _ => true
  | .handleCollision => true
  | .backOff _ => true
  | .getMaxAttempts => true
  | .getReceiveTime => true

end Sys2Proof
end

