-- ==== Sys2Proof/Machine/State.lean ====
section
/-! DEFINITION. The machine's state, its reset value, and the reasons a step stops. -/

namespace Sys2Proof.Machine

/-- Memory: (address, byte) pairs, addresses strictly rising, no byte equal to what an unlisted address
reads as (`Memory.wf` in Machine/Ops.lean). It holds MEM and the capture buffer (10_state.md R46, R47). -/
abbrev Memory := List Host.Cell

/-- The transport-control region as ENGINE and LINE see it (R30 to R40). TC.TXCMD holds no value (R38). -/
structure Tc where
  activateRx   : BitVec 32
  preambleLen  : BitVec 32
  padLen       : BitVec 32
  dataBitWidth : BitVec 32
  acceptance   : BitVec 32
  enable       : BitVec 32
  sendDone     : Bool
  dataReady    : Bool
  sending      : Bool
  receiving    : Bool
  /-- STATUS[31:4], which has no meaning (R39, U8). -/
  statusRest   : BitVec 28
  /-- The read side of TC.RX_DATA (R40). -/
  rxData       : BitVec 32
deriving DecidableEq, Repr

/-- The bulk-transfer region (R41 to R45) with what BULK holds behind it (R49 (c), R240). -/
structure Bt where
  src      : BitVec 32
  dst      : BitVec 32
  len      : BitVec 32
  status   : BitVec 32
  /-- BT.DONE[0] (R45). -/
  done     : Bool
  /-- BT.DONE[31:1], which has no meaning (R45, U8). -/
  doneRest : BitVec 31
  /-- Submitted transfers BULK has not taken yet, oldest first. -/
  queue    : List Transfer
  active   : Option Active
deriving DecidableEq, Repr

/-- What LINE holds and ENGINE never sees directly (R49 (a), (b)). -/
structure LineState where
  /-- Command words taken into the transmit path and not yet sent, oldest first. -/
  txWords      : List (BitVec 32)
  /-- Frame bytes taken into the transmit path and not yet sent, oldest first. -/
  txBytes      : List (BitVec 8)
  /-- The partly received frame, first byte first. -/
  partialFrame : List (BitVec 8)
deriving DecidableEq, Repr

/-- All the state the spec gives the machine (10_state.md), the parameters it takes as arguments, and three
fields of the model's own: `fresh`, `schedule`, `trace`. -/
structure State where
  /-- The parameters of 00_scope.md R7; no step changes them (log 2). -/
  cfg         : Config
  /-- TIMEOUT (R21). -/
  timeout     : BitVec 32
  /-- RES (R22). -/
  res         : BitVec 64
  /-- RES_VALID (R22). -/
  resValid    : Bool
  /-- OP, A1, A0 (R23). -/
  latch       : Latch
  /-- BUSY (R24). -/
  busy        : Bool
  /-- SEQ (R25). -/
  seq         : Seq
  /-- T0, CNT, REP, DLY, S (R26) and v (R176). -/
  scratch     : Scratch
  /-- INIT_DONE, a ghost bit (R28). -/
  initDone    : Bool
  /-- PENDING_SEND, a ghost bit (R28). -/
  pendingSend : Bool
  tc          : Tc
  bt          : Bt
  line        : LineState
  /-- MEM and the capture buffer (R46, R47). -/
  mem         : Memory
  /-- NOW (R48). -/
  now         : BitVec 64
  /-- The MODEL's own: how many free values have been used (log 36). -/
  fresh       : Nat
  /-- The MODEL's own: the moves of the agents that are already known, next first (log 4). -/
  schedule    : List Move
  /-- The MODEL's own: what the run has shown so far, newest first (00_scope.md R14; log 26). -/
  trace       : List Event
deriving DecidableEq, Repr

/-- The one fault. The engine itself raises none (60_exceptions.md R220). -/
inductive Fault where
  /-- SEQ and the command latch name no access of any operation's pseudocode, or BUSY does not agree with SEQ.
  Raised by every meaning and by ENGINE's turn; no run from reset reaches such a state. Safe (log 28). -/
  | sequencerOutOfStep
deriving DecidableEq, Repr

/-- The refusals. None is raised for the sake of an instruction's rarity or length. -/
inductive Refusal where
  /-- The instruction has no meaning yet: raised by an arm of `exec` alone. Safe. No arm raises it. -/
  | notModelled (mnemonic : String)
  /-- A command other than the one in flight is executed while BUSY = 1: the command port takes no word
  (R24, U2). Raised by every meaning; `step` never asks for it. Safe (log 10). -/
  | commandInFlight
  /-- The configuration breaks a constraint of 00_scope.md R8 (U21). Raised by `step`. Safe (log 32). -/
  | configNotAdmitted
  /-- A write of BT.LEN would make more transfers pending than BT_QUEUE_DEPTH (R240, U10). Raised by SEND_FRAME
  and RECEIVE_FRAME at their write of BT.LEN. Safe (log 13). -/
  | bulkQueueFull
  /-- A transfer outside the contract has been submitted, by a SEND_FRAME outside its length precondition or with a
  buffer BULK cannot use (R162, R241, U1, U12). Raised by `step`, whoever's turn it is, from the submission on.
  Safe (log 12, 14). -/
  | transferOutsideContract
  /-- LINE makes a move its contract rules out (R237, R238). Raised by LINE's move. Safe (log 16). -/
  | lineOutsideContract
  /-- HOST writes a facade register, the capture buffer, or the buffer of a RECEIVE_FRAME in flight (R242, R276, R47, R73,
  U11). Raised by HOST's move. Safe (log 25). -/
  | hostOutsideContract
  /-- CLOCK would raise NOW past 64 bits (R48, D27). Raised by CLOCK's move. Safe (log 21). -/
  | clockPastWidth
  /-- The schedule names a move its agent does not have in this state. Raised by moves of LINE and BULK. Safe (log 35). -/
  | noSuchMove
deriving DecidableEq, Repr

/-- The three outcomes of a step of this machine. -/
abbrev Result := Host.Outcome State Fault Refusal

/-- The machine right after reset under configuration `c` (70_reset_and_hazards.md R260 to R262). The values
R261 gives: TIMEOUT, RES, RES_VALID, the latch, BUSY, SEQ, the ghost bits, BT.DONE[0]; R262: nothing in the
transmit path, no capture in progress, nothing pending. The rest is DESIGN CHOICE (log 5 to 8, 36). -/
def State.resetWith (c : Config) : State where
  cfg := c
  timeout := 0
  res := 0
  resValid := false
  latch := ⟨0, 0, 0⟩
  busy := false
  seq := .idle
  scratch := ⟨0, 0, 0, 0, 0, 0⟩
  initDone := false
  pendingSend := false
  tc := ⟨0, 0, 0, 0, 0, 0, false, false, false, false, 0, 0⟩
  bt := ⟨0, 0, 0, 0, true, 0, [], none⟩
  line := ⟨[], [], []⟩
  mem := []
  now := 0
  fresh := 0
  schedule := []
  trace := []

/-- The machine right after reset; its configuration is the spec's example X1 (DESIGN CHOICE, log 3). -/
def State.reset : State := State.resetWith Config.x1

end Sys2Proof.Machine
end

