-- ==== Sys2Proof/Machine/Platform.lean ====
section
/-! DEFINITION. What follows from the parameters: derived constants, the register map, and which
configurations are admitted (00_scope.md R7, R8). -/

namespace Sys2Proof.Machine

/-- RESPONSE_POLL_BOUND_US, which the source fixes (R7, R11). -/
def responsePollBoundUs : Nat := 1000

/-- CYCLES_PER_US (R7, 60_exceptions.md R231). -/
def cyclesPerUs (c : Config) : Nat := c.clockHz / 1000000

/-- CYCLES_PER_MS (R7, R231). -/
def cyclesPerMs (c : Config) : Nat := c.clockHz / 1000

/-- NOW as the facade derives it from a cycle count (R231). -/
def microsOfCycles (c : Config) (cycles : Nat) : Nat := cycles / cyclesPerUs c

/-- The facade's millisecond clock (R231), which no rule of the engine uses (R233). -/
def millisOfCycles (c : Config) (cycles : Nat) : Nat := cycles / cyclesPerMs c

/-- DIV, the divisor of the repetition count (43_response_exchange.md R175). -/
def repDivisor (c : Config) : Nat := 2 * c.bitSpacer.toNat + c.bitWidth.toNat / 4

/-- The base address of the region a register stands in (R30, R41). -/
def regBase (c : Config) : Reg → BitVec 32
  | .activateRx => c.tcBase
  | .preambleLen => c.tcBase
  | .padLen => c.tcBase
  | .dataBitWidth => c.tcBase
  | .acceptance => c.tcBase
  | .enable => c.tcBase
  | .axisStatus => c.tcBase
  | .rxData => c.tcBase
  | .btSrc => c.btBase
  | .btDst => c.btBase
  | .btLen => c.btBase
  | .btStatus => c.btBase
  | .btDone => c.btBase

/-- The offset of a register, one of the thirteen OFF_* (R31, R42). -/
def regOff (c : Config) : Reg → BitVec 32
  | .activateRx => c.off.activateRx
  | .preambleLen => c.off.preambleLen
  | .padLen => c.off.padLen
  | .dataBitWidth => c.off.dataBitWidth
  | .acceptance => c.off.acceptance
  | .enable => c.off.enable
  | .axisStatus => c.off.axisStatus
  | .rxData => c.off.rxData
  | .btSrc => c.off.btSrc
  | .btDst => c.off.btDst
  | .btLen => c.off.btLen
  | .btStatus => c.off.btStatus
  | .btDone => c.off.btDone

/-- The bus address of a register: region base plus offset, modulo 2^32 (R31, R42, 20_memory.md R69). -/
def regAddr (c : Config) (r : Reg) : BitVec 32 := regBase c r + regOff c r

/-- The thirteen registers (R31, R42). -/
def allRegs : List Reg :=
  [.activateRx, .preambleLen, .padLen, .dataBitWidth, .acceptance, .enable, .axisStatus, .rxData,
   .btSrc, .btDst, .btLen, .btStatus, .btDone]

/-- `a` is one of the `len` bytes from `base` on, addresses modulo 2^32 (R69). -/
def inRange (base : BitVec 32) (len : Nat) (a : BitVec 32) : Bool := (a - base).toNat < len

/-- `a` is one of the four bytes of some register. -/
def inRegister (c : Config) (a : BitVec 32) : Bool := allRegs.any (fun r => inRange (regAddr c r) 4 a)

/-- `a` is a byte of the capture buffer (10_state.md R47). -/
def inCapture (c : Config) (a : BitVec 32) : Bool := inRange c.captureAddr c.maxPacketLen.toNat a

/-- Some byte of the range is a byte of the register. -/
def meetsRegister (c : Config) (base : BitVec 32) (len : Nat) (r : Reg) : Bool :=
  inRange base len (regAddr c r) || inRange base len (regAddr c r + 1) ||
  inRange base len (regAddr c r + 2) || inRange base len (regAddr c r + 3)

/-- Some byte of the range is a byte of some register. -/
def meetsRegisters (c : Config) (base : BitVec 32) (len : Nat) : Bool :=
  allRegs.any (fun r => meetsRegister c base len r)

/-- The constraints on a configuration: R8 (a) to (h); the ranges R7 gives the thirteen OFF_* (multiples of 4) and
BT_QUEUE_DEPTH; and FAIL above every byte and every legal count (92_eei_decisions.md D5; log 24). -/
def constraints (c : Config) : List Bool :=
  [ decide (1 ≤ c.mode), decide (c.mode ≤ 4),
    decide (1 ≤ c.maxPacketLen.toNat), decide (c.maxPacketLen.toNat ≤ 65534),
    decide (1 ≤ repDivisor c),
    decide ((c.maxPacketLen.toNat * c.responseOffset.toNat + c.latency.toNat) / repDivisor c + 2 ≤ 255),
    decide (c.degree ≤ 7),
    decide (1 ≤ c.pollBound),
    decide (1000000 ≤ c.clockHz),
    decide ((allRegs.map (regAddr c)).Nodup),
    allRegs.all (fun r => (regOff c r).toNat % 4 == 0),
    allRegs.all (fun r => (regAddr c r).toNat % 4 == 0),
    !meetsRegisters c c.captureAddr c.maxPacketLen.toNat,
    decide (2 ≤ c.btQueueDepth),
    decide (255 < c.fail.toNat), decide (c.maxPacketLen.toNat < c.fail.toNat) ]

/-- The configuration is admitted (R8). -/
def admitted (c : Config) : Bool := (constraints c).all id

end Sys2Proof.Machine
end

