-- ==== Sys2Proof/Machine/Flags.lean ====
section
/-! DEFINITION. The status flags and the other fields taken from facade words (10_state.md R39, R40, R45;
30_encoding.md R112). The engine computes no flag of its own: it only reads these. -/

namespace Sys2Proof.Machine

/-- The word a read of TC.STATUS returns: bit 0 SEND_DONE, bit 1 DATA_READY, bit 2 SENDING, bit 3 RECEIVING (R39). -/
def statusWord (tc : Tc) : BitVec 32 :=
  tc.statusRest ++ (BitVec.ofBool tc.receiving ++ (BitVec.ofBool tc.sending ++
    (BitVec.ofBool tc.dataReady ++ BitVec.ofBool tc.sendDone)))

/-- The word a read of BT.DONE returns; bit 0 is the completion flag (R45). -/
def doneWord (bt : Bt) : BitVec 32 := bt.doneRest ++ BitVec.ofBool bt.done

/-- SEND_DONE = STATUS[0] (R39). -/
def sendDoneOf (v : BitVec 32) : Bool := v.getLsbD 0

/-- DATA_READY = STATUS[1] (R39). -/
def dataReadyOf (v : BitVec 32) : Bool := v.getLsbD 1

/-- SENDING = STATUS[2] (R39). -/
def sendingOf (v : BitVec 32) : Bool := v.getLsbD 2

/-- RECEIVING = STATUS[3] (R39). -/
def receivingOf (v : BitVec 32) : Bool := v.getLsbD 3

/-- The completion flag DONE[0] (R45). -/
def doneOf (v : BitVec 32) : Bool := v.getLsbD 0

/-- The response byte RX_DATA[7:0] (R40). -/
def responseByteOf (v : BitVec 32) : BitVec 8 := v.extractLsb' 0 8

end Sys2Proof.Machine
end

