-- ==== Sys2Proof/Machine/Operands.lean ====
section
/-! DEFINITION. The values the operations compute from their operands and parameters, and the facade words
they assemble (30_encoding.md R109 to R112; 41 R141; 42 R161; 43 R175). Every value is unsigned (R9). -/

namespace Sys2Proof.Machine

/-- The timeout calculator: length * RESPONSE_OFFSET + LATENCY, which fits 32 bits (R161, R21). -/
def timeoutOf (c : Config) (length : BitVec 16) : BitVec 32 :=
  BitVec.ofNat 32 (length.toNat * c.responseOffset.toNat + c.latency.toNat)

/-- The repetition count: TIMEOUT div DIV + 2 (R175). -/
def repetitionsOf (c : Config) (timeout : BitVec 32) : Nat := timeout.toNat / repDivisor c + 2

/-- The back-off delay: attempts^(1 + DEGREE), exact, which fits 64 bits when DEGREE <= 7 (R141). -/
def backOffOf (c : Config) (attempts : BitVec 8) : BitVec 64 :=
  BitVec.ofNat 64 (attempts.toNat ^ (1 + c.degree))

/-- The start-up delay of BEGIN: startup_id * STARTUP_UNIT_US, below 2^40 (R130). -/
def startupDelayOf (c : Config) (startupId : BitVec 8) : BitVec 40 :=
  BitVec.ofNat 40 (startupId.toNat * c.startupUnitUs.toNat)

/-- The marker word of RECEIVE_RESPONSE: PAYLOAD = REP[7:0], ACK_REQUEST = bit 10 (R110; log 22). -/
def markerWord (rep : Nat) : BitVec 32 := (BitVec.ofNat 8 rep).zeroExtend 32 ||| (1 <<< 10)

/-- The response word of SEND_RESPONSE: PAYLOAD = byte, LAST = bit 8, ACK = bit 9 (R111). -/
def responseWord (byte : BitVec 8) : BitVec 32 := byte.zeroExtend 32 ||| (1 <<< 8) ||| (1 <<< 9)

/-- BT.LEN's word: the byte count in bits 15:0, zero above (10_state.md R43). -/
def lenWord (length : BitVec 16) : BitVec 32 := length.zeroExtend 32

/-- The result word of a byte count, a byte, FAIL or another 16-bit value (R108). -/
def res16 (v : BitVec 16) : BitVec 64 := v.zeroExtend 64

/-- FAIL as a result (R108). -/
def failResult (c : Config) : BitVec 64 := res16 c.fail

end Sys2Proof.Machine
end

