-- ==== Sys2Proof/Machine/Ops.lean ====
section
/-! DEFINITION. The named operations over memory and registers: byte access to memory, RegRead and RegWrite,
the clock, the random draw, the sequencer's transitions, issue, completion and reset.
There is no taking of an exception and no return from one: the engine raises no exception, takes no trap and
has no return instruction (60_exceptions.md R220, R227, R228). What stands in their place is `complete` with
a result code (R221), and the hang, an infinite run (R224). -/

namespace Sys2Proof.Machine

/-! ### Memory -/

/-- What a byte that nothing has written reads as (DESIGN CHOICE, unsafe, log 7). -/
def Memory.unlisted : Byte := 0

/-- The canonical form: addresses strictly rising and inside the 32-bit space, no byte equal to the unlisted one. -/
abbrev Memory.wf (m : Memory) : Prop :=
  m.Pairwise (fun x y => x.1 < y.1) ∧ ∀ c ∈ m, c.2 ≠ Memory.unlisted ∧ c.1 < 2 ^ 32

/-- The byte at an address. -/
def Memory.readAt : Memory → Nat → Byte
  | [], _ => Memory.unlisted
  | (a', b') :: m, a => if a' = a then b' else Memory.readAt m a

/-- Memory with one byte stored, in canonical form. -/
def Memory.writeAt : Memory → Nat → Byte → Memory
  | [], a, b => if b = Memory.unlisted then [] else [(a, b)]
  | (a', b') :: m, a, b =>
    if a < a' then
      if b = Memory.unlisted then (a', b') :: m else (a, b) :: (a', b') :: m
    else if a = a' then
      if b = Memory.unlisted then m else (a, b) :: m
    else (a', b') :: Memory.writeAt m a b

/-- MemRead(addr, 1) (00_scope.md R10). -/
def memRead (a : BitVec 32) (s : State) : Byte := Memory.readAt s.mem a.toNat

/-- MemWrite(addr, 1, b) (R10). -/
def memWrite (a : BitVec 32) (b : Byte) (s : State) : State :=
  { s with mem := Memory.writeAt s.mem a.toNat b }

/-- The bytes `bs` stored from `a` on, ascending, addresses modulo 2^32 (20_memory.md R67, R69). -/
def memWriteBytes : BitVec 32 → List Byte → State → State
  | _, [], s => s
  | a, b :: bs, s => memWriteBytes (a + 1) bs (memWrite a b s)

/-! ### The run's record and the sequencer -/

/-- The run shows one more event (R14). -/
def record (e : Event) (s : State) : State := { s with trace := e :: s.trace }

/-- SEQ <- (op, phase) (10_state.md R25). -/
def goTo (op : Op) (p : Fin 16) (s : State) : State := { s with seq := .phase op p }

/-- T0 <- Now() (00_scope.md R10). -/
def setT0 (s : State) : State := { s with scratch := { s.scratch with t0 := s.now } }

/-- CNT <- n (R26). -/
def setCnt (n : Nat) (s : State) : State := { s with scratch := { s.scratch with cnt := n } }

/-- REP <- n (R26). -/
def setRep (n : Nat) (s : State) : State := { s with scratch := { s.scratch with rep := n } }

/-- DLY <- d (R26). -/
def setDly (d : BitVec 40) (s : State) : State := { s with scratch := { s.scratch with dly := d } }

/-- S <- v (R26). -/
def setS (v : BitVec 32) (s : State) : State := { s with scratch := { s.scratch with s := v } }

/-- v <- the word read (43_response_exchange.md R176, P8; log 37). -/
def setV (v : BitVec 32) (s : State) : State := { s with scratch := { s.scratch with v := v } }

/-! ### Register access -/

/-- The value RegRead returns: what the register holds at this step (20_memory.md R64). -/
def regValue : ReadReg → State → BitVec 32
  | .status, s => statusWord s.tc
  | .rxData, s => s.tc.rxData
  | .done, s => doneWord s.bt

/-- What RegRead does besides returning the value: it is shown, and a read of TC.RX_DATA clears DATA_READY
when RESP_READ_CLEARS_READY (R64, 60_exceptions.md R239). -/
def regRead (r : ReadReg) (s : State) : State :=
  let t := record (.read r (regValue r s)) s
  match r with
  | .rxData =>
    if s.cfg.respReadClearsReady then { t with tc := { t.tc with dataReady := false } } else t
  | .status => t
  | .done => t

/-- The transfers pending, the active one first (R240). -/
def pendingTransfers (bt : Bt) : List Transfer := (bt.active.map Active.xfer).toList ++ bt.queue

/-- How many transfers are pending (R240). -/
def pendingCount (bt : Bt) : Nat := bt.queue.length + bt.active.isSome.toNat

/-- What a write of BT.LEN does: it holds the value, submits (BT.SRC, BT.DST, BT.LEN[15:0]) and clears BT.DONE[0]
(R43, R45, R240). -/
def submit (v : BitVec 32) (bt : Bt) : Bt :=
  { bt with
    len := v
    done := false
    queue := bt.queue ++ [⟨bt.src, bt.dst, v.extractLsb' 0 16⟩] }

/-- RegWrite: the register holds `v`, or the write's side effect happens (20_memory.md R65; log 33). -/
def regWrite (r : WriteReg) (v : BitVec 32) (s : State) : State :=
  let t := record (.wrote r v) s
  match r with
  | .activateRx => { t with tc := { t.tc with activateRx := v } }
  | .preambleLen => { t with tc := { t.tc with preambleLen := v } }
  | .padLen => { t with tc := { t.tc with padLen := v } }
  | .dataBitWidth => { t with tc := { t.tc with dataBitWidth := v } }
  | .acceptance => { t with tc := { t.tc with acceptance := v } }
  | .enable => { t with tc := { t.tc with enable := v } }
  | .txCmd => { t with line := { t.line with txWords := t.line.txWords ++ [v] } }
  | .rxData =>
    if v = 0 then { t with tc := { t.tc with dataReady := false } }
    else { t with tc := { t.tc with rxData := v } }
  | .src => { t with bt := { t.bt with src := v } }
  | .dst => { t with bt := { t.bt with dst := v } }
  | .len => { t with bt := submit v t.bt }

/-- S <- RegRead(TC.STATUS) (R10). -/
def readStatus (s : State) : State := setS (regValue .status s) (regRead .status s)

/-- S <- RegRead(TC.STATUS); CNT <- CNT + 1: one read of a bounded poll (R176, R178). -/
def pollStatus (s : State) : State := setCnt (s.scratch.cnt + 1) (readStatus s)

/-- CNT = POLL_BOUND: the poll has made its greatest number of reads (R176). -/
def boundMet (s : State) : Bool := s.scratch.cnt == s.cfg.pollBound

/-- n - T0 >= d for the clock read n of this step (R10, R232; log 23). -/
def elapsed (d : Nat) (s : State) : Bool := decide (s.scratch.t0.toNat + d ≤ s.now.toNat)

/-- RNG's answer to Random(m): any natural r with 0 <= r <= m (60_exceptions.md R246; log 20). -/
def draw (m : Nat) (s : State) : Nat := Config.freeDraw s.fresh % (m + 1)

/-- A free value has been used (log 36). -/
def useFree (s : State) : State := { s with fresh := s.fresh + 1 }

/-! ### Issue, completion, reset -/

/-- Complete(v): RES <- v, RES_VALID <- 1, BUSY <- 0, SEQ <- IDLE; what the scratch registers then hold is free
(10_state.md R27, R26; log 6). -/
def complete (v : BitVec 64) (s : State) : State :=
  { s with
    res := v
    resValid := true
    busy := false
    seq := .idle
    scratch := Config.freeScratch s.fresh
    fresh := s.fresh + 1
    trace := .completed v :: s.trace }

/-- The latch's content for a word (R23, R101). -/
def latchOfWord (w : DWord) : Latch := ⟨fieldOp w, fieldA1 w, fieldA0 w⟩

/-- The latch's content for a command. -/
def latchOf (i : Instr) : Latch := ⟨i.op.number, i.a1, i.a0⟩

/-- Issue: OP, A1, A0 <- the fields; BUSY <- 1; RES_VALID <- 0; RES and everything else as it was (R27, R22). -/
def latchWord (w : DWord) (s : State) : State :=
  { s with
    latch := latchOfWord w
    busy := true
    resValid := false
    trace := .issued w :: s.trace }

/-- Issue of a command: its word is latched and SEQ <- (op, P0) (R27). -/
def issue (i : Instr) (s : State) : State := goTo i.op 0 (latchWord (encode i) s)

/-- Issue of a RESERVED word: Complete(FAIL) in the issue step, no access, no other state changed (30_encoding.md R107). -/
def issueReserved (w : DWord) (s : State) : State := complete (failResult s.cfg) (latchWord w s)

/-- A meaning's frame (R13, R27, R74): at BUSY = 0 the command is issued and `start` finishes the issue step;
while this very command is in flight ENGINE makes the access of SEQ's phase; while another one is, the port
takes no word (R24). -/
def command (i : Instr) (start : State → Result) (access : Nat → State → Result) (s : State) : Result :=
  if s.busy = false then start (issue i s)
  else if s.latch = latchOf i then
    match s.seq with
    | .idle => .fault .sequencerOutOfStep
    | .phase op p => if op = i.op then access p.val s else .fault .sequencerOutOfStep
  else .refused .commandInFlight

/-- RegWrite(BT.LEN, v), then `k`: refused when the queue would grow past BT_QUEUE_DEPTH (60_exceptions.md R240, U10). -/
def submitThen (v : BitVec 32) (k : State → State) (s : State) : Result :=
  if pendingCount s.bt < s.cfg.btQueueDepth then .next (k (regWrite .len v s))
  else .refused .bulkQueueFull

/-- The reset of the block: no facade access; the command in flight is abandoned; the scratch registers become
unspecified (70_reset_and_hazards.md R260, R263). -/
def engineReset (s : State) : State :=
  { s with
    timeout := 0
    res := 0
    resValid := false
    latch := ⟨0, 0, 0⟩
    busy := false
    seq := .idle
    scratch := Config.freeScratch s.fresh
    fresh := s.fresh + 1
    initDone := false
    pendingSend := false
    trace := .reset :: s.trace }

end Sys2Proof.Machine
end

