-- ==== Sys2Proof/Machine/Accessors.lean ====
section
/-! DEFINITION. GET_MAX_ATTEMPTS and GET_RECEIVE_TIME (45_config_accessors.md R215, R216). -/

namespace Sys2Proof.Machine

/-- GET_MAX_ATTEMPTS (R215): completes in its issue step with MAX_ATTEMPTS. -/
def execGetMaxAttempts (s : State) : Result :=
  command .getMaxAttempts (fun t => .next (complete (res16 t.cfg.maxAttempts) t))
    (fun _ _ => .fault .sequencerOutOfStep) s

/-- GET_RECEIVE_TIME (R216): completes in its issue step with RECEIVE_TIME_US. -/
def execGetReceiveTime (s : State) : Result :=
  command .getReceiveTime (fun t => .next (complete (t.cfg.receiveTimeUs.zeroExtend 64) t))
    (fun _ _ => .fault .sequencerOutOfStep) s

end Sys2Proof.Machine
end

