-- ==== Sys2Proof/Machine/Arbiter.lean ====
section
/-! DEFINITION. CAN_START, BACK_OFF and HANDLE_COLLISION (41_csma_arbiter_and_backoff.md R140 to R144). -/

namespace Sys2Proof.Machine

/-- CAN_START's one access: 1 when RECEIVING = 0, else 0. -/
def canStartAccess (p : Nat) (s : State) : Result :=
  match p with
  | 0 =>
    let t := readStatus s
    .next (complete (if receivingOf t.scratch.s then 0 else 1) t)
  | _ => .fault .sequencerOutOfStep

/-- CAN_START (R140). -/
def execCanStart (s : State) : Result :=
  command .canStart (fun t => .next t) canStartAccess s

/-- BACK_OFF makes no access: it completes in its issue step. -/
def backOffStart (attempts : BitVec 8) (s : State) : Result :=
  .next (complete (backOffOf s.cfg attempts) s)

/-- BACK_OFF attempts (R141). -/
def execBackOff (attempts : BitVec 8) (s : State) : Result :=
  command (.backOff attempts) (backOffStart attempts) (fun _ _ => .fault .sequencerOutOfStep) s

/-- HANDLE_COLLISION: the draw, then DelayUs(DLY). -/
def handleCollisionAccess (p : Nat) (s : State) : Result :=
  match p with
  | 0 =>
    .next (goTo .handleCollision 1
      (useFree (setDly (BitVec.ofNat 40 (draw s.cfg.collisionDelayMaxUs.toNat s)) s)))
  | 1 => .next (goTo .handleCollision 2 (setT0 s))
  | 2 => .next (if elapsed s.scratch.dly.toNat s then complete 0 s else goTo .handleCollision 2 s)
  | _ => .fault .sequencerOutOfStep

/-- HANDLE_COLLISION (R143). -/
def execHandleCollision (s : State) : Result :=
  command .handleCollision (fun t => .next t) handleCollisionAccess s

end Sys2Proof.Machine
end

