-- ==== Sys2Proof/Machine/FrameReceive.lean ====
section
/-! DEFINITION. RECEIVE_FRAME (44_frame_receive.md R200, R201). -/

namespace Sys2Proof.Machine

/-- The issue step of RECEIVE_FRAME: a short read completes at once with max_length (R200, R201). -/
def receiveFrameStart (maxLength : BitVec 16) (s : State) : Result :=
  .next (if maxLength = s.cfg.maxPacketLen then s else complete (res16 maxLength) s)

/-- The phases P0 to P5 of RECEIVE_FRAME's full path; the wait at P4 has no bound of its own. -/
def receiveFrameAccess (buffer : BitVec 32) (maxLength : BitVec 16) (p : Nat) (s : State) : Result :=
  match p with
  | 0 =>
    let t := readStatus s
    .next (if dataReadyOf t.scratch.s then goTo .receiveFrame 1 t else complete (failResult t.cfg) t)
  | 1 => .next (goTo .receiveFrame 2 (regWrite .src s.cfg.captureAddr s))
  | 2 => .next (goTo .receiveFrame 3 (regWrite .dst buffer s))
  | 3 => submitThen (lenWord maxLength) (goTo .receiveFrame 4) s
  | 4 =>
    .next (if doneOf (regValue .done s) then goTo .receiveFrame 5 (regRead .done s)
      else goTo .receiveFrame 4 (regRead .done s))
  | 5 => .next (complete (res16 maxLength) (regWrite .rxData 0 s))
  | _ => .fault .sequencerOutOfStep

/-- RECEIVE_FRAME buffer, max_length (R200). -/
def execReceiveFrame (buffer : BitVec 32) (maxLength : BitVec 16) (s : State) : Result :=
  command (.receiveFrame buffer maxLength) (receiveFrameStart maxLength)
    (receiveFrameAccess buffer maxLength) s

end Sys2Proof.Machine
end

