-- ==== Sys2Proof/Machine/FrameSend.lean ====
section
/-! DEFINITION. SEND_FRAME (42_frame_send.md R160 to R162). -/

namespace Sys2Proof.Machine

/-- The issue step of SEND_FRAME: TIMEOUT <- length * RESPONSE_OFFSET + LATENCY, for every length (R161, R162). -/
def sendFrameStart (length : BitVec 16) (s : State) : Result :=
  .next { s with timeout := timeoutOf s.cfg length }

/-- The phases P0 to P3 of SEND_FRAME; the wait at P0 has no bound. -/
def sendFrameAccess (buffer : BitVec 32) (length : BitVec 16) (p : Nat) (s : State) : Result :=
  match p with
  | 0 =>
    let t := readStatus s
    .next (if sendingOf t.scratch.s then goTo .sendFrame 0 t else goTo .sendFrame 1 t)
  | 1 => .next (goTo .sendFrame 2 (regWrite .src buffer s))
  | 2 => .next (goTo .sendFrame 3 (regWrite .dst (regAddr s.cfg .axisStatus) s))
  | 3 => submitThen (lenWord length) (fun t => complete 0 { t with pendingSend := true }) s
  | _ => .fault .sequencerOutOfStep

/-- SEND_FRAME buffer, length (R160). -/
def execSendFrame (buffer : BitVec 32) (length : BitVec 16) (s : State) : Result :=
  command (.sendFrame buffer length) (sendFrameStart length) (sendFrameAccess buffer length) s

end Sys2Proof.Machine
end

