-- ==== Sys2Proof/Machine/Initialise.lean ====
section
/-! DEFINITION. BEGIN (40_initialise.md R130, R131). -/

namespace Sys2Proof.Machine

/-- The issue step of BEGIN: DLY <- startup_id * STARTUP_UNIT_US. -/
def beginStart (startupId : BitVec 8) (s : State) : Result :=
  .next (setDly (startupDelayOf s.cfg startupId) s)

/-- The phases P0 to P7 of BEGIN. -/
def beginAccess (p : Nat) (s : State) : Result :=
  match p with
  | 0 => .next (goTo .beginInit 1 (setT0 s))
  | 1 => .next (if elapsed s.scratch.dly.toNat s then goTo .beginInit 2 s else goTo .beginInit 1 s)
  | 2 => .next (goTo .beginInit 3 (regWrite .preambleLen s.cfg.presetPreamble s))
  | 3 => .next (goTo .beginInit 4 (regWrite .padLen s.cfg.presetPad s))
  | 4 => .next (goTo .beginInit 5 (regWrite .dataBitWidth s.cfg.presetDataWidth s))
  | 5 => .next (goTo .beginInit 6 (regWrite .acceptance s.cfg.presetAcceptance s))
  | 6 => .next (goTo .beginInit 7 (regWrite .enable 1 s))
  | 7 => .next (complete 1 { regWrite .activateRx 1 s with initDone := true })
  | _ => .fault .sequencerOutOfStep

/-- BEGIN startup_id (R130). -/
def execBegin (startupId : BitVec 8) (s : State) : Result :=
  command (.beginInit startupId) (beginStart startupId) beginAccess s

end Sys2Proof.Machine
end

