-- ==== Sys2Proof/Machine/ResponseExchange.lean ====
section
/-! DEFINITION. RECEIVE_RESPONSE and SEND_RESPONSE (43_response_exchange.md R175 to R179). -/

namespace Sys2Proof.Machine

/-- Both exits of RECEIVE_RESPONSE: TC.ACTIVATE_RX <- 1, PENDING_SEND <- 0, Complete(v) (P9, P10). -/
def exchangeDone (v : BitVec 64) (s : State) : State :=
  complete v { regWrite .activateRx 1 s with pendingSend := false }

/-- The phases P0 to P10 of RECEIVE_RESPONSE: W1 is P2, W2 is P3, W3 is P4, the 1 ms window is P6 and P7.
The word v of P8 stands in its own scratch register until P9 (log 37). -/
def receiveResponseAccess (p : Nat) (s : State) : Result :=
  match p with
  | 0 => .next (goTo .receiveResponse 1 (setRep (repetitionsOf s.cfg s.timeout) (regWrite .activateRx 0 s)))
  | 1 => .next (goTo .receiveResponse 2 (setCnt 0 (regWrite .txCmd (markerWord s.scratch.rep) s)))
  | 2 =>
    let t := pollStatus s
    .next (if sendingOf t.scratch.s || boundMet t then goTo .receiveResponse 3 (setCnt 0 t)
      else goTo .receiveResponse 2 t)
  | 3 =>
    let t := pollStatus s
    .next (if !sendingOf t.scratch.s || boundMet t then goTo .receiveResponse 4 (setCnt 0 t)
      else goTo .receiveResponse 3 t)
  | 4 =>
    let t := pollStatus s
    .next (if !receivingOf t.scratch.s || boundMet t then goTo .receiveResponse 5 t
      else goTo .receiveResponse 4 t)
  | 5 => .next (goTo .receiveResponse 6 (setT0 s))
  | 6 =>
    let t := readStatus s
    .next (if dataReadyOf t.scratch.s then goTo .receiveResponse 8 t else goTo .receiveResponse 7 t)
  | 7 =>
    .next (if elapsed responsePollBoundUs s then goTo .receiveResponse 10 s else goTo .receiveResponse 6 s)
  | 8 => .next (goTo .receiveResponse 9 (setV (regValue .rxData s) (regRead .rxData s)))
  | 9 => .next (exchangeDone ((responseByteOf s.scratch.v).zeroExtend 64) s)
  | 10 => .next (exchangeDone (failResult s.cfg) s)
  | _ => .fault .sequencerOutOfStep

/-- RECEIVE_RESPONSE (R176). -/
def execReceiveResponse (s : State) : Result :=
  command .receiveResponse (fun t => .next t) receiveResponseAccess s

/-- The phases P0 and P1 of SEND_RESPONSE. -/
def sendResponseAccess (byte : BitVec 8) (p : Nat) (s : State) : Result :=
  match p with
  | 0 => .next (goTo .sendResponse 1 (setCnt 0 (regWrite .txCmd (responseWord byte) s)))
  | 1 =>
    let t := pollStatus s
    .next (if sendDoneOf t.scratch.s || boundMet t then complete 0 t else goTo .sendResponse 1 t)
  | _ => .fault .sequencerOutOfStep

/-- SEND_RESPONSE byte (R178). -/
def execSendResponse (byte : BitVec 8) (s : State) : Result :=
  command (.sendResponse byte) (fun t => .next t) (sendResponseAccess byte) s

end Sys2Proof.Machine
end

