-- ==== Sys2Proof/Machine/Dispatch.lean ====
section
/-! DEFINITION. One arm per command (30_encoding.md R103). At BUSY = 0 it is the command's issue step, while the
command is in flight it is ENGINE's next access for it (00_scope.md R13; log 1). -/

namespace Sys2Proof.Machine

def exec (i : Instr) (s : State) : Host.Outcome State Fault Refusal :=
  match i with
  | .beginInit startupId => Sys2Proof.Machine.execBegin startupId s
  | .canStart => Sys2Proof.Machine.execCanStart s
  | .sendFrame buffer length => Sys2Proof.Machine.execSendFrame buffer length s
  | .receiveResponse => Sys2Proof.Machine.execReceiveResponse s
  | .receiveFrame buffer maxLength => Sys2Proof.Machine.execReceiveFrame buffer maxLength s
  | .sendResponse byte => Sys2Proof.Machine.execSendResponse byte s
  | .handleCollision => Sys2Proof.Machine.execHandleCollision s
  | .backOff attempts => Sys2Proof.Machine.execBackOff attempts s
  | .getMaxAttempts => Sys2Proof.Machine.execGetMaxAttempts s
  | .getReceiveTime => Sys2Proof.Machine.execGetReceiveTime s

end Sys2Proof.Machine
end

