-- ==== Sys2Proof/Machine/Environment.lean ====
section
/-! DEFINITION. The moves of LINE, BULK, CLOCK and HOST's memory writes (60_exceptions.md R230, R235 to R242). -/

namespace Sys2Proof.Machine

/-! ### LINE (R235 to R239) -/

/-- LINE's contract holds: a BEGIN has completed since reset and TC.ENABLE[0] = 1 (R235; 10_state.md R37;
70_reset_and_hazards.md R265). -/
def lineBound (s : State) : Bool := s.initDone && s.tc.enable.getLsbD 0

/-- Background capture takes what the medium delivers: TC.ACTIVATE_RX[0] = 1 (R237, 10_state.md R32); where the contract
does not hold, always (R235). -/
def capturing (s : State) : Bool := !lineBound s || s.tc.activateRx.getLsbD 0

/-- LINE may write the capture buffer: it captures, and no captured frame waits (R237, R238); where the contract does not
hold, always (R235). -/
def mayStage (s : State) : Bool := capturing s && (!lineBound s || !s.tc.dataReady)

/-- The capture engine receives one more byte. Outside the capture gap it lengthens the partly received frame; in it the
byte, and with it the frame it belongs to, is lost (R237; 70_reset_and_hazards.md R278; log 18). -/
def hear (b : Byte) (s : State) : State :=
  { s with line := { s.line with
    partialFrame := if capturing s then s.line.partialFrame ++ [b] else [] } }

/-- A write of a configuration register by LINE, where its contract does not hold (R235, R237). -/
def lineConfig (r : ConfigReg) (v : BitVec 32) (tc : Tc) : Tc :=
  match r with
  | .activateRx => { tc with activateRx := v }
  | .preambleLen => { tc with preambleLen := v }
  | .padLen => { tc with padLen := v }
  | .dataBitWidth => { tc with dataBitWidth := v }
  | .acceptance => { tc with acceptance := v }
  | .enable => { tc with enable := v }

/-- One move of LINE. -/
def lineMove (m : LineMove) (s : State) : Result :=
  match m with
  | .flags sendDone sending receiving rest =>
    .next { s with tc := { s.tc with
      sendDone := sendDone, sending := sending, receiving := receiving, statusRest := rest } }
  | .ready _ => .next { s with tc := { s.tc with dataReady := true } }
  | .unready =>
    if lineBound s then .refused .lineOutsideContract
    else .next { s with tc := { s.tc with dataReady := false } }
  | .response v => .next { s with tc := { s.tc with rxData := v } }
  | .hear b => .next (hear b s)
  | .forget => .next { s with line := { s.line with partialFrame := [] } }
  | .stageFrame =>
    if mayStage s && decide (s.line.partialFrame.length ≤ s.cfg.maxPacketLen.toNat) then
      .next { memWriteBytes s.cfg.captureAddr s.line.partialFrame s with
        line := { s.line with partialFrame := [] } }
    else .refused .lineOutsideContract
  | .stage i b =>
    if mayStage s && decide (i < s.cfg.maxPacketLen.toNat) then
      .next (memWrite (s.cfg.captureAddr + BitVec.ofNat 32 i) b s)
    else .refused .lineOutsideContract
  | .sendWord =>
    match s.line.txWords with
    | [] => .refused .noSuchMove
    | _ :: ws => .next { s with line := { s.line with txWords := ws } }
  | .sendByte =>
    match s.line.txBytes with
    | [] => .refused .noSuchMove
    | _ :: bs => .next { s with line := { s.line with txBytes := bs } }
  | .config r v =>
    if lineBound s then .refused .lineOutsideContract
    else .next { s with tc := lineConfig r v s.tc }

/-! ### BULK (R240, R241) -/

/-- The transfer's destination is the axis/status word: memory to register (R241, 20_memory.md R68). -/
def toTransmitPath (c : Config) (x : Transfer) : Bool := x.dst == regAddr c .axisStatus

/-- The range does not wrap past 2^32 (R69, U12). -/
def noWrap (base : BitVec 32) (len : Nat) : Bool := decide (base.toNat + len ≤ 2 ^ 32)

/-- The two ranges of `len` bytes have no byte in common. -/
def disjoint (a b : BitVec 32) (len : Nat) : Bool := !inRange a len b && !inRange b len a

/-- The range has no byte of the capture buffer (U12). -/
def clearOfCapture (c : Config) (base : BitVec 32) (len : Nat) : Bool :=
  !inRange base len c.captureAddr && !inRange c.captureAddr c.maxPacketLen.toNat base

/-- The transfer is inside the contract (42_frame_send.md R162; R241; U1, U12; log 12, 14). -/
def transferAllowed (c : Config) (x : Transfer) : Bool :=
  let n := x.len.toNat
  decide (1 ≤ n) && noWrap x.src n && !meetsRegisters c x.src n &&
  (if toTransmitPath c x then decide (n ≤ c.maxPacketLen.toNat) && clearOfCapture c x.src n
   else noWrap x.dst n && !meetsRegisters c x.dst n && disjoint x.src x.dst n &&
     clearOfCapture c x.dst n)

/-- Every pending transfer is inside the contract. From the submission of one that is not, the spec describes neither BULK
nor LINE, and the run is refused (R162, R241; 93_implementation_defined.md U1, U12; log 12). -/
def pendingAllowed (s : State) : Bool := (pendingTransfers s.bt).all (transferAllowed s.cfg)

/-- BULK takes the head of its queue (R240). -/
def bulkStart (s : State) : Result :=
  match s.bt.active, s.bt.queue with
  | none, x :: q =>
    .next { s with bt := { s.bt with
      queue := q, active := some ⟨x, List.replicate x.len.toNat .waiting⟩ } }
  | _, _ => .refused .noSuchMove

/-- The bytes before `i` have all left the state `b` says they must have left: used for the ascending order of
a memory-to-register transfer (R241). -/
def allBefore (ok : ByteState → Bool) (i : Nat) (bytes : List ByteState) : Bool := (bytes.take i).all ok

/-- BULK reads source byte `i` (R241). -/
def bulkRead (i : Nat) (s : State) : Result :=
  match s.bt.active with
  | some a =>
    if a.bytes[i]? = some .waiting ∧
        (toTransmitPath s.cfg a.xfer = true → allBefore (fun b => b != .waiting) i a.bytes = true) then
      .next { s with bt := { s.bt with
        active := some ⟨a.xfer, a.bytes.set i (.held (memRead (a.xfer.src + BitVec.ofNat 32 i) s))⟩ } }
    else .refused .noSuchMove
  | none => .refused .noSuchMove

/-- The active transfer with these byte states: when every byte is done the transfer is finished, and if nothing
is queued BT.DONE[0] is set in this same step (R240, R45). -/
def settle (x : Transfer) (bytes : List ByteState) (bt : Bt) : Bt :=
  if bytes.all (fun b => b == .done) then { bt with active := none, done := bt.queue.isEmpty }
  else { bt with active := some ⟨x, bytes⟩ }

/-- Where a transfer's byte goes: into the transmit path, or to memory at dst + i (R241). -/
def deliver (x : Transfer) (i : Nat) (b : Byte) (s : State) : State :=
  if toTransmitPath s.cfg x then { s with line := { s.line with txBytes := s.line.txBytes ++ [b] } }
  else memWrite (x.dst + BitVec.ofNat 32 i) b s

/-- BULK writes byte `i`, read before, to its destination (R241). -/
def bulkWrite (i : Nat) (s : State) : Result :=
  match s.bt.active with
  | some a =>
    match a.bytes[i]? with
    | some (.held b) =>
      if toTransmitPath s.cfg a.xfer = true → allBefore (fun c => c == .done) i a.bytes = true then
        .next { deliver a.xfer i b s with bt := settle a.xfer (a.bytes.set i .done) s.bt }
      else .refused .noSuchMove
    | _ => .refused .noSuchMove
  | none => .refused .noSuchMove

/-- One move of BULK. -/
def bulkMove (m : BulkMove) (s : State) : Result :=
  match m with
  | .start => bulkStart s
  | .read i => bulkRead i s
  | .write i => bulkWrite i s
  | .noise status doneRest => .next { s with bt := { s.bt with status := status, doneRest := doneRest } }

/-! ### CLOCK and HOST (R230, R242) -/

/-- CLOCK raises NOW (R230); NOW is 64 bits and never wraps (10_state.md R48; log 21). -/
def clockMove (d : Nat) (s : State) : Result :=
  if s.now.toNat + d < 2 ^ 64 then .next { s with now := s.now + BitVec.ofNat 64 d }
  else .refused .clockPastWidth

/-- `a` is a byte of the buffer of the RECEIVE_FRAME in flight (20_memory.md R73). -/
def inReceiveBuffer (s : State) (a : BitVec 32) : Bool :=
  s.busy && s.latch.op == Op.receiveFrame.number && inRange s.latch.a0 s.latch.a1.toNat a

/-- HOST writes a byte of MEM: anywhere but the facade registers (R242, R276), the capture buffer (R47) and the buffer of a
RECEIVE_FRAME in flight (R242, R73, R275); log 25. -/
def hostWriteMove (a : BitVec 32) (b : Byte) (s : State) : Result :=
  if inRegister s.cfg a || inCapture s.cfg a || inReceiveBuffer s a then .refused .hostOutsideContract
  else .next (memWrite a b s)

end Sys2Proof.Machine
end

