-- ==== Sys2Proof/Machine/Turns.lean ====
section
/-! DEFINITION. Whose turn it is and what the turn does (00_scope.md R6, R13; 10_state.md R24, R27). -/

namespace Sys2Proof.Machine

/-- The next move: the first of those already known, and after them the environment's free choice (log 4). -/
def nextMove (s : State) : Move :=
  match s.schedule with
  | m :: _ => m
  | [] => Config.freeMove s.fresh

/-- The state with its next move taken off. -/
def popMove (s : State) : State :=
  match s.schedule with
  | _ :: ms => { s with schedule := ms }
  | [] => { s with fresh := s.fresh + 1 }

/-- ENGINE's turn: the next access of the command in flight; with none in flight it waits (R25, R51). -/
def engineTurn (s : State) : Result :=
  if s.busy then
    match decodeFields s.latch.op s.latch.a1 s.latch.a0 with
    | .ok i => exec i s
    | .error _ => .fault .sequencerOutOfStep
  else .next s

/-- HOST presents a word: the port takes it when BUSY = 0 (R24, R27); a RESERVED word completes with FAIL
(30_encoding.md R107); while BUSY = 1 the port does not take it (R24; log 10). -/
def issueTurn (w : DWord) (s : State) : Result :=
  if s.busy then .next s
  else
    match decode w with
    | .ok i => exec i s
    | .error _ => .next (issueReserved w s)

/-- One move. -/
def takeMove (m : Move) (s : State) : Result :=
  match m with
  | .engine => engineTurn s
  | .issue w => issueTurn w s
  | .hostWrite a b => hostWriteMove a b s
  | .line l => lineMove l s
  | .bulk b => bulkMove b s
  | .clock d => clockMove d s
  | .reset => .next (engineReset s)

/-- One step in which the given agent makes the given move. It has a meaning under an admitted configuration
(00_scope.md R8) and while every submitted transfer is inside the contract (42_frame_send.md R162; log 12). -/
def turnOf (m : Move) (s : State) : Result :=
  if admitted s.cfg then
    if pendingAllowed s then takeMove m s else .refused .transferOutsideContract
  else .refused .configNotAdmitted

/-- One step of the machine: the next move, by whichever agent's turn it is (R13). -/
def turn (s : State) : Result := turnOf (nextMove s) (popMove s)

/-- The engine idle and HOST's very next move the issue of `w`: how a program comes to run (log 9). -/
def placeCommand (w : DWord) (s : State) : State :=
  { s with busy := false, seq := .idle, schedule := .issue w :: s.schedule }

end Sys2Proof.Machine
end

