-- ==== Sys2Proof/Machine/Step.lean ====
section
/-! DEFINITION. The step, and placing a command where the next step takes it. -/

namespace Sys2Proof.Machine

/-- One step: one move of one agent (00_scope.md R13, R14). -/
def step (s : State) : Host.Outcome State Fault Refusal := turn s

/-- `s` with the command word of bits `w` on the command port, taken by the very next step (log 9). -/
def State.withFetchWord (s : State) (nbits w : Nat) : State :=
  placeCommand (BitVec.ofNat 64 (w % 2 ^ nbits)) s

end Sys2Proof.Machine
end

