-- ==== Sys2Proof/Safety.lean ====
section
/-! DEFINITION. What claims are stated with: the machine's invariant, ENGINE running one command with no other agent's
step in between, when a run is over (00_scope.md R14), infinite runs and the environment's duties in them
(60_exceptions.md R243), the part of a run since a command's issue, and the exchange state machines of 10_state.md R50. -/

namespace Sys2Proof.Machine

/-- How many phases an operation's pseudocode labels (R25; 40 to 45). -/
def phaseCount : Op → Nat
  | .beginInit => 8
  | .canStart => 1
  | .sendFrame => 4
  | .receiveResponse => 11
  | .receiveFrame => 6
  | .sendResponse => 2
  | .handleCollision => 3
  | .backOff => 0
  | .getMaxAttempts => 0
  | .getReceiveTime => 0

/-- SEQ stands in a bounded poll: W1, W2, W3 of RECEIVE_RESPONSE, or P1 of SEND_RESPONSE (R176, R178). -/
def inBoundedPoll : Seq → Bool
  | .idle => false
  | .phase op p =>
    match op with
    | .receiveResponse => p == 2 || p == 3 || p == 4
    | .sendResponse => p == 1
    | _ => false

/-- The sequencer's part of the invariant: SEQ = IDLE exactly when BUSY = 0 (R25); while a command is in flight RES
is not valid (R22, R27), the latch holds that command, SEQ names one of its phases, and a bounded poll has not
yet made its greatest number of reads (R26). -/
def seqInv (s : State) : Prop :=
  match s.seq with
  | .idle => s.busy = false
  | .phase op p =>
    s.busy = true ∧ s.resValid = false ∧ p.val < phaseCount op ∧
    (∃ i : Instr, s.latch = latchOf i ∧ i.op = op) ∧
    (inBoundedPoll s.seq = true → s.scratch.cnt < s.cfg.pollBound)

/-- BULK's part: BT.DONE[0] = 1 exactly when nothing is active or queued (R45), the pending transfers are within
BT_QUEUE_DEPTH (R240), and the active transfer has a state for each of its bytes and a byte left to do (R241). -/
def bulkInv (s : State) : Prop :=
  (s.bt.done = true ↔ s.bt.active = none ∧ s.bt.queue = []) ∧
  pendingCount s.bt ≤ s.cfg.btQueueDepth ∧
  ∀ a, s.bt.active = some a → a.bytes.length = a.xfer.len.toNat ∧ ∃ b ∈ a.bytes, b ≠ ByteState.done

/-- The invariant every step keeps. -/
def MachineInv (s : State) : Prop := Memory.wf s.mem ∧ seqInv s ∧ bulkInv s

/-- The engine is idle and can take a command. -/
abbrev idle (s : State) : Prop := s.busy = false ∧ s.seq = .idle

/-- The command `i` is in flight and SEQ = (its operation, phase `p`). -/
abbrev atPhase (i : Instr) (p : Fin 16) (s : State) : Prop :=
  s.busy = true ∧ s.latch = latchOf i ∧ s.seq = .phase i.op p

/-- `n` steps of ENGINE at the command `i`, the first its issue when BUSY = 0, with no step of another agent in
between, stopping at the first that is not a next state. -/
def execSteps (i : Instr) : Nat → State → Result
  | 0, s => .next s
  | n + 1, s =>
    match exec i s with
    | .next t => execSteps i n t
    | .fault r => .fault r
    | .refused r => .refused r

/-- `n` steps of the machine. -/
def stepN (n : Nat) (s : State) : Result := core.run n s

/-! ### When a run is over (R14) -/

/-- HOST presents a command word. -/
def isIssue : Move → Bool
  | .issue _ => true
  | .engine => false
  | .hostWrite _ _ => false
  | .line _ => false
  | .bulk _ => false
  | .clock _ => false
  | .reset => false

/-- In none of the next `n` steps does HOST issue a command. -/
def hostSilent : Nat → State → Bool
  | 0, _ => true
  | n + 1, s =>
    !isIssue (nextMove s) &&
      match step s with
      | .next t => hostSilent n t
      | .fault _ => true
      | .refused _ => true

/-- A run that has `n` more steps is over: HOST issues no further command in them, BUSY = 0, and BULK has nothing
pending. An infinite run is over when this holds for every `n`. -/
def runOver (n : Nat) (s : State) : Bool := hostSilent n s && !s.busy && pendingCount s.bt == 0

/-! ### Infinite runs and the duties of the environment (60_exceptions.md R243)

A run is given by the moves its agents make; `step` takes them from the schedule and, after that, from the environment's
free choice. A duty is a premise on an infinite run: no step enforces it (log 30). -/

/-- The states of an infinite run, one step for each move. -/
def InfiniteRun (moves : Nat → Move) (run : Nat → State) : Prop :=
  ∀ n, turnOf (moves n) (run n) = .next (run (n + 1))

/-- ENGINE goes on making steps: between two of them the other agents make finitely many (R13). -/
def EngineGoesOn (moves : Nat → Move) : Prop := ∀ n, ∃ m, n ≤ m ∧ moves m = .engine

/-- The reset input is not asserted from step `n` on. -/
def NoResetFrom (n : Nat) (moves : Nat → Move) : Prop := ∀ m, n ≤ m → moves m ≠ .reset

/-- (a) CLOCK's duty: NOW grows without bound, as far as its 64 bits reach (10_state.md R48; log 30). -/
def ClockDuty (run : Nat → State) : Prop :=
  ∀ n d, (run n).now.toNat + d < 2 ^ 64 → ∃ m, n ≤ m ∧ (run n).now.toNat + d ≤ (run m).now.toNat

/-- The transfer at the head: the active one, or else the oldest queued one. -/
def headTransfer (bt : Bt) : Option Transfer := (pendingTransfers bt).head?

/-- The step from `s` to `t` finishes the transfer `x`. -/
def finishes (x : Transfer) (s t : State) : Prop :=
  s.bt.active.map Active.xfer = some x ∧ t.bt.active = none

/-- (b) BULK's duty: a memory-to-memory transfer that reaches the head is finished after finitely many steps. (c), (d):
a transfer to the transmit path is under no such duty, and LINE is under none. -/
def BulkDuty (run : Nat → State) : Prop :=
  ∀ n x, headTransfer (run n).bt = some x → toTransmitPath (run n).cfg x = false →
    ∃ m, n ≤ m ∧ finishes x (run m) (run (m + 1))

/-- NOW, as wide as it is, can show the end of the wait SEQ stands in (10_state.md R48: NOW does not wrap in a run of
practical length). -/
def waitFits (s : State) : Prop :=
  match s.seq with
  | .idle => True
  | .phase op p =>
    match op with
    | .beginInit => p = 1 → s.scratch.t0.toNat + s.scratch.dly.toNat < 2 ^ 64
    | .handleCollision => p = 2 → s.scratch.t0.toNat + s.scratch.dly.toNat < 2 ^ 64
    | .receiveResponse => p = 6 ∨ p = 7 → s.scratch.t0.toNat + responsePollBoundUs < 2 ^ 64
    | _ => True

/-- From step `n` of the run the command in flight there stays in flight until some later step completes it. -/
def CompletesFrom (n : Nat) (run : Nat → State) : Prop :=
  ∃ m, n < m ∧ (run m).busy = false ∧ (run m).resValid = true ∧
    ∀ k, n ≤ k → k < m → (run k).busy = true ∧ (run k).latch = (run n).latch

/-! ### The part of a run since a command's issue (R14) -/

/-- The events since the last issue or reset, newest first. -/
def sinceIssue : List Event → List Event
  | [] => []
  | e :: es =>
    match e with
    | .issued _ => []
    | .reset => []
    | .read r v => .read r v :: sinceIssue es
    | .wrote r v => .wrote r v :: sinceIssue es
    | .completed v => .completed v :: sinceIssue es

/-- How many times a register has been read. -/
def readsOf (r : ReadReg) : List Event → Nat
  | [] => 0
  | .read r' _ :: es => (if r' = r then 1 else 0) + readsOf r es
  | _ :: es => readsOf r es

/-- The event is a register read. -/
def isRead : Event → Bool
  | .read _ _ => true
  | .issued _ => false
  | .wrote _ _ => false
  | .completed _ => false
  | .reset => false

/-- How many status reads RECEIVE_RESPONSE has made at least when it stands at a phase from P2 on (R177 (d)). -/
def statusFloor : Nat → Nat
  | 2 => 0
  | 3 => 1
  | 4 => 2
  | 5 => 3
  | 6 => 3
  | _ => 4

/-- What RECEIVE_RESPONSE has shown when it stands at phase `p` (R176, R177): nothing at P0; ACTIVATE_RX <- 0 at P1;
from P2 on that write, the one marker word and then only reads, TC.RX_DATA being read only from P8 to P9 and
right after a status read that showed DATA_READY = 1; at P10 the window has passed. -/
def responseSoFar (p : Nat) (s : State) : Prop :=
  match p with
  | 0 => sinceIssue s.trace = []
  | 1 => sinceIssue s.trace = [.wrote .activateRx 0]
  | q => ∃ reads m, sinceIssue s.trace = reads ++ [.wrote .txCmd m, .wrote .activateRx 0] ∧
      reads.all isRead = true ∧
      m.getLsbD 10 = true ∧ m.getLsbD 9 = false ∧ m.getLsbD 8 = false ∧
      statusFloor q ≤ readsOf .status reads ∧
      (q ≠ 9 → readsOf .rxData reads = 0) ∧
      (q = 8 → ∃ v rest, reads = .read .status v :: rest ∧ dataReadyOf v = true) ∧
      (q = 9 → ∃ w v rest, reads = .read .rxData w :: .read .status v :: rest ∧
        dataReadyOf v = true ∧ readsOf .rxData rest = 0) ∧
      (q = 10 → s.scratch.t0.toNat + responsePollBoundUs ≤ s.now.toNat)

/-- The record of a RECEIVE_RESPONSE in flight is as its pseudocode says. -/
def responseInv (s : State) : Prop :=
  ∀ p : Fin 16, s.seq = .phase .receiveResponse p → responseSoFar p.val s

/-! ### Frames and schedules used in statements -/

/-- Every byte of memory reads as before. -/
abbrev memoryUnchanged (s t : State) : Prop := ∀ a : BitVec 32, memRead a t = memRead a s

/-- Nothing outside the engine and the facade is changed: memory, NOW, the parameters, the moves to come. -/
abbrev outsideUnchanged (s t : State) : Prop :=
  memoryUnchanged s t ∧ t.now = s.now ∧ t.cfg = s.cfg ∧ t.schedule = s.schedule

/-- Of the facade, the agents behind it, TIMEOUT, the ghost bits and all outside the engine nothing is changed. -/
abbrev onlyEngineChanged (s t : State) : Prop :=
  t.timeout = s.timeout ∧ t.tc = s.tc ∧ t.bt = s.bt ∧ t.line = s.line ∧ t.initDone = s.initDone ∧
    t.pendingSend = s.pendingSend ∧ outsideUnchanged s t

/-- The `n` bytes from `a` on and the `m` bytes from `b` on have a byte in common, addresses modulo 2^32 (R69). -/
abbrev rangesMeet (a : BitVec 32) (n : Nat) (b : BitVec 32) (m : Nat) : Prop :=
  ∃ i j, i < n ∧ j < m ∧ a + BitVec.ofNat 32 i = b + BitVec.ofNat 32 j

/-- The command has completed with `v` (R27). -/
abbrev completedWith (v : BitVec 64) (t : State) : Prop :=
  t.res = v ∧ t.resValid = true ∧ t.busy = false ∧ t.seq = .idle

/-- BULK's moves for a transfer of `n` bytes, byte by byte in ascending order: one of the orders R241 allows. -/
def copyMoves (n : Nat) : List Move :=
  (List.range n).flatMap (fun i => [Move.bulk (.read i), Move.bulk (.write i)])

/-- The loops of R51: the only transfers of control that do not go forward. -/
def loops : List (Op × Nat × Nat) :=
  [(.beginInit, 1, 1), (.handleCollision, 2, 2), (.sendFrame, 0, 0),
   (.receiveResponse, 2, 2), (.receiveResponse, 3, 3), (.receiveResponse, 4, 4), (.receiveResponse, 7, 6),
   (.sendResponse, 1, 1), (.receiveFrame, 4, 4)]

/-! ### The exchange state machines (10_state.md R50)

Observers of a run: nothing stores them. Each follows the table of R50 row by row, one step at a time; a step that no row
names leaves the phase as it was (log 38). -/

/-- The command whose issue or access the step from `s` is. -/
def commandOfStep (s : State) : Option Instr :=
  match nextMove s with
  | .issue w => if s.busy then none else (decode w).toOption
  | .engine => if s.busy then (decodeFields s.latch.op s.latch.a1 s.latch.a0).toOption else none
  | .hostWrite _ _ => none
  | .line _ => none
  | .bulk _ => none
  | .clock _ => none
  | .reset => none

/-- The command HOST issues by the step from `s`. -/
def issuedBy (s : State) : Option Instr := if s.busy then none else commandOfStep s

/-- The command the step from `s` to `t` completes. -/
def completedBy (s t : State) : Option Instr := if t.busy then none else commandOfStep s

/-- The sender's phases; ACK_RECEIVED and TIMEOUT are outcomes on the way to IDLE (`exchangeOutcome`). -/
inductive SenderPhase where
  | idle | carrierSense | transmitting | awaitingAck
deriving DecidableEq, Repr

/-- What an exchange came to (90_conflicts.md C4: outcomes of one command, which nothing holds). -/
inductive ExchangeOutcome where
  | ackReceived | timeout
deriving DecidableEq, Repr

/-- The outcome of the exchange that the step from `s` to `t` ends: TIMEOUT when RECEIVE_RESPONSE completes with FAIL,
ACK_RECEIVED when it completes with a byte. -/
def exchangeOutcome (s t : State) : Option ExchangeOutcome :=
  if completedBy s t = some .receiveResponse then
    if t.res = failResult t.cfg then some .timeout else some .ackReceived
  else none

/-- The command is a SEND_FRAME. -/
def isSendFrame : Option Instr → Bool
  | some (.sendFrame _ _) => true
  | _ => false

/-- The command is a SEND_RESPONSE. -/
def isSendResponse : Option Instr → Bool
  | some (.sendResponse _) => true
  | _ => false

/-- The command is a RECEIVE_FRAME of full length. -/
def isFullReceive (maxPacketLen : BitVec 16) : Option Instr → Bool
  | some (.receiveFrame _ l) => l == maxPacketLen
  | _ => false

/-- The sender's phase after the step from `s` to `t`. -/
def senderNext (before : SenderPhase) (s t : State) : SenderPhase :=
  if nextMove s = .reset then .idle
  else
    match before with
    | .idle => if issuedBy s = some .canStart then .carrierSense else .idle
    | .carrierSense =>
      if completedBy s t = some .canStart ∧ t.res = 0 then .idle
      else if isSendFrame (issuedBy s) then .transmitting
      else .carrierSense
    | .transmitting => if issuedBy s = some .receiveResponse then .awaitingAck else .transmitting
    | .awaitingAck => if completedBy s t = some .receiveResponse then .idle else .awaitingAck

/-- The receiver's phases; `unarmed` is its side before it is IDLE(background-armed). -/
inductive ReceiverPhase where
  | unarmed | idle | frameCaptured | deliveredToCaller | sendAck
deriving DecidableEq, Repr

/-- IDLE(background-armed): a BEGIN has completed and TC.ACTIVATE_RX[0] = 1. -/
def armed (s : State) : Bool := s.initDone && s.tc.activateRx.getLsbD 0

/-- IDLE, or its unarmed side. -/
def receiverIdle (s : State) : ReceiverPhase := if armed s then .idle else .unarmed

/-- LINE stages bytes of a frame in the capture buffer by the step from `s`. -/
def stages (s : State) : Bool :=
  match nextMove s with
  | .line m =>
    match m with
    | .stageFrame => !s.line.partialFrame.isEmpty
    | .stage _ _ => true
    | _ => false
  | _ => false

/-- LINE reports a whole staged frame by the step from `s`. -/
def reportsFrame (s : State) : Bool := nextMove s = .line (.ready .frame)

/-- LINE has staged a frame, or bytes of one, since the receiver was armed, and has not reported it yet: after the step
from `s`. -/
def stagedNext (before : Bool) (s : State) : Bool :=
  if nextMove s = .reset ∨ reportsFrame s = true then false else before || armed s && stages s

/-- A step of LINE sets DATA_READY after staging a whole frame. DATA_READY set for a response byte is none (R238, R274). -/
def capturesFrame (staged : Bool) (s : State) : Bool := staged && reportsFrame s && !s.tc.dataReady

/-- The receiver's phase after the step from `s` to `t`; `staged` as before the step. The SEND_ACK is optional, so a further
captured frame is taken from DELIVERED_TO_CALLER too. -/
def receiverNext (before : ReceiverPhase) (staged : Bool) (s t : State) : ReceiverPhase :=
  if nextMove s = .reset then receiverIdle t
  else
    match before with
    | .unarmed => receiverIdle t
    | .idle => if capturesFrame staged s then .frameCaptured else receiverIdle t
    | .frameCaptured =>
      if isFullReceive t.cfg.maxPacketLen (completedBy s t) ∧ t.res ≠ failResult t.cfg then .deliveredToCaller
      else .frameCaptured
    | .deliveredToCaller =>
      if isSendResponse (issuedBy s) then .sendAck
      else if armed s && capturesFrame staged s then .frameCaptured
      else .deliveredToCaller
    | .sendAck => if isSendResponse (completedBy s t) then receiverIdle t else .sendAck

/-- What the observers of a run know: both phases, and whether a frame is staged and not yet reported. -/
structure Exchange where
  sender : SenderPhase
  receiver : ReceiverPhase
  staged : Bool
deriving DecidableEq, Repr

/-- The observers after the step from `s` to `t`. -/
def exchangeNext (before : Exchange) (s t : State) : Exchange :=
  ⟨senderNext before.sender s t, receiverNext before.receiver before.staged s t, stagedNext before.staged s⟩

/-- The observers after `n` steps of the machine. -/
def exchangeAfter : Nat → State → Exchange → Exchange
  | 0, _, before => before
  | n + 1, s, before =>
    match step s with
    | .next t => exchangeAfter n t (exchangeNext before s t)
    | .fault _ => before
    | .refused _ => before

/-- The observers after reset. -/
def exchangeAtReset : Exchange := ⟨.idle, .unarmed, false⟩

end Sys2Proof.Machine
end

