-- ==== Sys2Proof/Certificates/Slice0/Obligations.lean ====
section
/-! DEFINITION. The statements for the provers. -/

open Sys2Proof Sys2Proof.Machine

/-! ### The command word -/

/-- 30_encoding.md R101 to R106: decoding the word of a command gives the command, whatever its operands. -/
def Obligations.DecodeOfEncodeIsTheCommand : Prop :=
  ∀ i : Instr, decode (encode i) = .ok i

/-- R101 to R106: a word that decodes to a command is the word of that command, so each command has one word. -/
def Obligations.EachCommandHasOneWord : Prop :=
  ∀ (w : DWord) (i : Instr), decode w = .ok i → encode i = w

/-- R102: a word is RESERVED exactly when RSV, OP or a must-be-zero operand field says so; it is operation X exactly
when (w AND mask_X) = match_X; and the fields of a command are those of its word. -/
def Obligations.WordIsReservedOrMatchesOneRow : Prop :=
  ∀ w : DWord,
    let op := (w.extractLsb' 60 4).toNat
    let rsv := w.extractLsb' 48 12
    let a1 := w.extractLsb' 32 16
    let a0 := w.extractLsb' 0 32
    ((∃ e, decode w = .error e) ↔
      (rsv ≠ 0 ∨ op = 0 ∨ 11 ≤ op ∨
        (op ∈ [2, 4, 7, 9, 10] ∧ (a1 ≠ 0 ∨ a0 ≠ 0)) ∨
        (op ∈ [1, 6, 8] ∧ (a1.extractLsb' 8 8 ≠ 0 ∨ a0 ≠ 0)))) ∧
    (∀ o : Op, (∃ i : Instr, decode w = .ok i ∧ i.op = o) ↔ w &&& o.mask = o.pattern) ∧
    (∀ i : Instr, decode w = .ok i → i.op.number.toNat = op ∧ i.a1 = a1 ∧ i.a0 = a0)

/-- Words of 95_test_vectors.md V1, one per operation, and three RESERVED ones. -/
def Obligations.SampleWordsDecodeAsListed : Prop :=
  decode 0x1000000500000000 = .ok (.beginInit 5) ∧
  decode 0x2000000000000000 = .ok .canStart ∧
  decode 0x3000000810000100 = .ok (.sendFrame 0x10000100 8) ∧
  decode 0x4000000000000000 = .ok .receiveResponse ∧
  decode 0x5000003210000200 = .ok (.receiveFrame 0x10000200 50) ∧
  decode 0x6000001500000000 = .ok (.sendResponse 0x15) ∧
  decode 0x7000000000000000 = .ok .handleCollision ∧
  decode 0x8000000300000000 = .ok (.backOff 3) ∧
  decode 0x9000000000000000 = .ok .getMaxAttempts ∧
  decode 0xA000000000000000 = .ok .getReceiveTime ∧
  decode 0x3001000810000100 = .error .rsvNotZero ∧
  decode 0x1000010000000000 = .error .operandNotZero ∧
  decode 0xB000000000000000 = .error .opReserved

/-! ### The step and the command port -/

/-- 00_scope.md R13, 10_state.md R25, R27: a step is the next move, made on the state with the move taken off. When HOST's
move presents the word of a command and BUSY = 0, and when it is ENGINE's turn and the latch holds a command, that is `exec`
of the command; when the move is LINE's, BULK's, CLOCK's or HOST's write of a byte it is that agent's move; and a command
placed with `withFetchWord` is what the very next step runs, from the engine idle. Model: log 1, 4, 9, 12, 32. -/
def Obligations.StepRunsTheDecodedCommand : Prop :=
  ∀ (s : State) (i : Instr), admitted s.cfg = true → pendingAllowed s = true →
    (∀ w, nextMove s = .issue w → s.busy = false → decode w = .ok i → step s = exec i (popMove s)) ∧
    (nextMove s = .engine → s.busy = true → s.latch = latchOf i → step s = exec i (popMove s)) ∧
    (∀ m, nextMove s = .line m → step s = lineMove m (popMove s)) ∧
    (∀ m, nextMove s = .bulk m → step s = bulkMove m (popMove s)) ∧
    (∀ d, nextMove s = .clock d → step s = clockMove d (popMove s)) ∧
    (∀ a b, nextMove s = .hostWrite a b → step s = hostWriteMove a b (popMove s)) ∧
    step (s.withFetchWord 64 (encode i).toNat) = exec i { s with busy := false, seq := .idle }

/-- R24: while BUSY = 1 the port does not take a word: the step changes nothing but the move taken off; and `exec` of
a command that is not the one in flight is refused by name. Model: log 10. -/
def Obligations.WordOfferedWhileBusyIsNotTaken : Prop :=
  ∀ s : State, s.busy = true →
    (∀ w, admitted s.cfg = true → pendingAllowed s = true → nextMove s = .issue w → step s = .next (popMove s)) ∧
    (∀ i : Instr, s.latch ≠ latchOf i → exec i s = .refused .commandInFlight)

/-- R107, which is the spec's own choice (decision D31, 93 U7): a RESERVED word issued at BUSY = 0 completes in its issue
step with FAIL, makes no facade access (the run shows only the issue and the completion) and changes no TIMEOUT, ghost bit,
register, flag or memory. The latch takes its fields and the scratch registers become free, neither of them observable.
Model: log 6, 11. -/
def Obligations.ReservedWordCompletesWithFail : Prop :=
  ∀ (s : State) (w : DWord) (e : Reserved), admitted s.cfg = true → pendingAllowed s = true →
    nextMove s = .issue w →
    s.busy = false → decode w = .error e →
    ∃ t, step s = .next t ∧ completedWith (s.cfg.fail.zeroExtend 64) t ∧
      t.trace = .completed (s.cfg.fail.zeroExtend 64) :: .issued w :: s.trace ∧
      t.timeout = s.timeout ∧ t.initDone = s.initDone ∧ t.pendingSend = s.pendingSend ∧
      t.tc = s.tc ∧ t.bt = s.bt ∧ t.line = s.line ∧ memoryUnchanged s t ∧ t.now = s.now ∧ t.cfg = s.cfg ∧
      t.latch = ⟨w.extractLsb' 60 4, w.extractLsb' 32 16, w.extractLsb' 0 32⟩

/-- R27, R22, R23, R161, R130: the issue of a command that makes an access. A RECEIVE_FRAME makes one exactly when
its max_length is MAX_PACKET_LEN (R200). -/
def Obligations.IssueLatchesTheCommand : Prop :=
  ∀ (i : Instr) (s : State), s.busy = false → 0 < phaseCount i.op →
    (∀ b l, i = .receiveFrame b l → l = s.cfg.maxPacketLen) →
    ∃ t, exec i s = .next t ∧ t.latch = ⟨i.op.number, i.a1, i.a0⟩ ∧ t.busy = true ∧
      t.resValid = false ∧ t.seq = .phase i.op 0 ∧ t.res = s.res ∧
      t.trace = .issued (encode i) :: s.trace ∧
      (∀ b l, i = .sendFrame b l →
        t.timeout.toNat = l.toNat * s.cfg.responseOffset.toNat + s.cfg.latency.toNat) ∧
      ((∀ b l, i ≠ .sendFrame b l) → t.timeout = s.timeout) ∧
      (∀ v, i = .beginInit v → t.scratch.dly.toNat = v.toNat * s.cfg.startupUnitUs.toNat) ∧
      t.tc = s.tc ∧ t.bt = s.bt ∧ t.line = s.line ∧ t.initDone = s.initDone ∧
      t.pendingSend = s.pendingSend ∧ outsideUnchanged s t

/-! ### BEGIN -/

/-- R130: BEGIN's word, its issue and its phases; what no clause names is unchanged. Model: log 23. -/
def Obligations.BeginFollowsItsPhases : Prop :=
  ∀ (v : BitVec 8) (s : State),
    (encode (.beginInit v)).toNat = 0x1000000000000000 + v.toNat * 2 ^ 32 ∧
    (s.busy = false → ∃ t, exec (.beginInit v) s = .next t ∧ atPhase (.beginInit v) 0 t ∧
      t.scratch.dly.toNat = v.toNat * s.cfg.startupUnitUs.toNat ∧ t.res = s.res ∧ onlyEngineChanged s t) ∧
    (atPhase (.beginInit v) 0 s → exec (.beginInit v) s =
      .next { s with scratch := { s.scratch with t0 := s.now }, seq := .phase .beginInit 1 }) ∧
    (atPhase (.beginInit v) 1 s → s.scratch.t0.toNat + s.scratch.dly.toNat ≤ s.now.toNat →
      exec (.beginInit v) s = .next { s with seq := .phase .beginInit 2 }) ∧
    (atPhase (.beginInit v) 1 s → s.now.toNat < s.scratch.t0.toNat + s.scratch.dly.toNat →
      exec (.beginInit v) s = .next s) ∧
    (atPhase (.beginInit v) 2 s → exec (.beginInit v) s =
      .next { s with
        tc := { s.tc with preambleLen := s.cfg.presetPreamble }, seq := .phase .beginInit 3,
        trace := .wrote .preambleLen s.cfg.presetPreamble :: s.trace }) ∧
    (atPhase (.beginInit v) 3 s → exec (.beginInit v) s =
      .next { s with
        tc := { s.tc with padLen := s.cfg.presetPad }, seq := .phase .beginInit 4,
        trace := .wrote .padLen s.cfg.presetPad :: s.trace }) ∧
    (atPhase (.beginInit v) 4 s → exec (.beginInit v) s =
      .next { s with
        tc := { s.tc with dataBitWidth := s.cfg.presetDataWidth }, seq := .phase .beginInit 5,
        trace := .wrote .dataBitWidth s.cfg.presetDataWidth :: s.trace }) ∧
    (atPhase (.beginInit v) 5 s → exec (.beginInit v) s =
      .next { s with
        tc := { s.tc with acceptance := s.cfg.presetAcceptance }, seq := .phase .beginInit 6,
        trace := .wrote .acceptance s.cfg.presetAcceptance :: s.trace }) ∧
    (atPhase (.beginInit v) 6 s → exec (.beginInit v) s =
      .next { s with
        tc := { s.tc with enable := 1 }, seq := .phase .beginInit 7,
        trace := .wrote .enable 1 :: s.trace }) ∧
    (atPhase (.beginInit v) 7 s → ∃ t, exec (.beginInit v) s = .next t ∧ completedWith 1 t ∧
      t.tc = { s.tc with activateRx := 1 } ∧ t.initDone = true ∧ t.pendingSend = s.pendingSend ∧
      t.timeout = s.timeout ∧ t.bt = s.bt ∧ t.line = s.line ∧ outsideUnchanged s t ∧
      t.trace = .completed 1 :: .wrote .activateRx 1 :: s.trace)

/-- R130, R131: a BEGIN during which CLOCK once raises NOW by at least the start-up delay takes ten steps: two clock
reads and six writes; it always succeeds, the registers hold the presets, nothing else is changed. -/
def Obligations.BeginConfiguresAndArms : Prop :=
  ∀ (v : BitVec 8) (s : State) (d : Nat) (rest : List Move), admitted s.cfg = true →
    pendingAllowed s = true → s.busy = false →
    v.toNat * s.cfg.startupUnitUs.toNat ≤ d → s.now.toNat + d < 2 ^ 64 →
    s.schedule = .issue (encode (.beginInit v)) :: .engine :: .clock d ::
      (List.replicate 7 Move.engine ++ rest) →
    ∃ t, stepN 10 s = .next t ∧ completedWith 1 t ∧ t.initDone = true ∧
      t.tc = { s.tc with
        activateRx := 1, preambleLen := s.cfg.presetPreamble, padLen := s.cfg.presetPad,
        dataBitWidth := s.cfg.presetDataWidth, acceptance := s.cfg.presetAcceptance, enable := 1 } ∧
      t.now.toNat = s.now.toNat + d ∧ t.timeout = s.timeout ∧ t.pendingSend = s.pendingSend ∧
      t.bt = s.bt ∧ t.line = s.line ∧ memoryUnchanged s t ∧ t.schedule = rest

/-! ### CAN_START, BACK_OFF, HANDLE_COLLISION and the accessors -/

/-- R39, R45: the word a read of TC.STATUS shows has SEND_DONE, DATA_READY, SENDING and RECEIVING at bits 0 to 3, and the
word a read of BT.DONE shows has the completion flag at bit 0; the bits above have no meaning and are what LINE, or BULK, left
in them. Model: log 19. -/
def Obligations.StatusAndDoneWordsAreLaidOutAsListed : Prop :=
  ∀ s : State,
    (atPhase .canStart 0 s → ∃ t v, exec .canStart s = .next t ∧
      t.trace = .completed t.res :: .read .status v :: s.trace ∧
      v.toNat = s.tc.sendDone.toNat + 2 * s.tc.dataReady.toNat + 4 * s.tc.sending.toNat +
        8 * s.tc.receiving.toNat + 16 * s.tc.statusRest.toNat) ∧
    (∀ b l, atPhase (.receiveFrame b l) 4 s → ∃ t d, exec (.receiveFrame b l) s = .next t ∧
      t.trace = .read .done d :: s.trace ∧
      d.toNat = s.bt.done.toNat + 2 * s.bt.doneRest.toNat)

/-- R140: CAN_START's word, its issue, and its one status read: the result is 1 when RECEIVING = 0 and 0 when it is 1,
whatever the other bits, and nothing but the result is written. That it is one sample is the spec's reading (D16). -/
def Obligations.CanStartReturnsNotReceiving : Prop :=
  encode .canStart = 0x2000000000000000 ∧
  ∀ s : State,
    (s.busy = false → ∃ t, exec .canStart s = .next t ∧ atPhase .canStart 0 t ∧ t.res = s.res ∧
      onlyEngineChanged s t) ∧
    (atPhase .canStart 0 s →
      ∃ t, exec .canStart s = .next t ∧ completedWith (if s.tc.receiving then 0 else 1) t ∧
        t.trace = .completed t.res :: .read .status (statusWord s.tc) :: s.trace ∧ onlyEngineChanged s t)

/-- R141: BACK_OFF completes in its issue step with attempts^(1 + DEGREE), exactly, makes no access and writes nothing
but the result. -/
def Obligations.BackOffReturnsThePower : Prop :=
  ∀ (a : BitVec 8) (s : State),
    (encode (.backOff a)).toNat = 0x8000000000000000 + a.toNat * 2 ^ 32 ∧
    (admitted s.cfg = true → s.busy = false →
      ∃ t, exec (.backOff a) s = .next t ∧ t.res.toNat = a.toNat ^ (1 + s.cfg.degree) ∧
        completedWith t.res t ∧ onlyEngineChanged s t ∧
        t.trace = .completed t.res :: .issued (encode (.backOff a)) :: s.trace)

/-- R142: the result of BACK_OFF is the same in every state with the same DEGREE, strictly increases in attempts, is 1
and 32 for attempts 1 and 2 at DEGREE 4, and at attempts 85 it is 4 437 053 125, beyond 32 bits. -/
def Obligations.BackOffIsDeterministicAndIncreasing : Prop :=
  ∀ (a b : BitVec 8) (s s' t t' : State), admitted s.cfg = true → admitted s'.cfg = true →
    s.cfg.degree = s'.cfg.degree → s.busy = false → s'.busy = false →
    exec (.backOff a) s = .next t → exec (.backOff b) s' = .next t' →
    (a = b → t.res = t'.res) ∧
    (a.toNat < b.toNat → t.res.toNat < t'.res.toNat) ∧
    (s.cfg.degree = 4 → a = 1 → t.res.toNat = 1) ∧
    (s.cfg.degree = 4 → a = 2 → t.res.toNat = 32) ∧
    (s.cfg.degree = 4 → a = 85 → t.res.toNat = 4437053125 ∧ 2 ^ 32 < t.res.toNat)

/-- R215, R216: the accessors' words; they complete in their issue step with the configured value, make no access and
write nothing but the result. -/
def Obligations.AccessorsReturnTheConfiguration : Prop :=
  encode .getMaxAttempts = 0x9000000000000000 ∧ encode .getReceiveTime = 0xA000000000000000 ∧
  ∀ s : State, s.busy = false →
    (∃ t, exec .getMaxAttempts s = .next t ∧ completedWith (s.cfg.maxAttempts.zeroExtend 64) t ∧
      onlyEngineChanged s t ∧
      t.trace = .completed t.res :: .issued (encode .getMaxAttempts) :: s.trace) ∧
    (∃ t, exec .getReceiveTime s = .next t ∧ completedWith (s.cfg.receiveTimeUs.zeroExtend 64) t ∧
      onlyEngineChanged s t ∧
      t.trace = .completed t.res :: .issued (encode .getReceiveTime) :: s.trace)

/-- R143: HANDLE_COLLISION's word, its issue and its phases: the draw is some natural number up to
COLLISION_DELAY_MAX_US, nothing more is known of it; the delay starts at the next clock read, holds until the drawn
time has passed, and the command then completes with 0. Model: log 20, 23. -/
def Obligations.HandleCollisionWaitsTheDraw : Prop :=
  encode .handleCollision = 0x7000000000000000 ∧
  ∀ s : State,
    (s.busy = false → ∃ t, exec .handleCollision s = .next t ∧ atPhase .handleCollision 0 t ∧
      t.res = s.res ∧ onlyEngineChanged s t) ∧
    (atPhase .handleCollision 0 s → ∃ t r, exec .handleCollision s = .next t ∧
      r ≤ s.cfg.collisionDelayMaxUs.toNat ∧ t.scratch.dly.toNat = r ∧
      t = { s with
        scratch := { s.scratch with dly := t.scratch.dly }, seq := .phase .handleCollision 1,
        fresh := t.fresh }) ∧
    (atPhase .handleCollision 1 s → exec .handleCollision s =
      .next { s with scratch := { s.scratch with t0 := s.now }, seq := .phase .handleCollision 2 }) ∧
    (atPhase .handleCollision 2 s → s.scratch.t0.toNat + s.scratch.dly.toNat ≤ s.now.toNat →
      ∃ t, exec .handleCollision s = .next t ∧ completedWith 0 t ∧ onlyEngineChanged s t ∧
        t.trace = .completed 0 :: s.trace) ∧
    (atPhase .handleCollision 2 s → s.now.toNat < s.scratch.t0.toNat + s.scratch.dly.toNat →
      exec .handleCollision s = .next s)

/-- R140 to R143, R215, R216: the operations that only read or compute change no register of the facade, no memory,
not TIMEOUT and no ghost bit, and RES only at completion. -/
def Obligations.ReadersAndTimersChangeOnlyTheResult : Prop :=
  ∀ (i : Instr) (s t : State),
    i.op ∈ [Op.canStart, .backOff, .handleCollision, .getMaxAttempts, .getReceiveTime] →
    exec i s = .next t →
    t.timeout = s.timeout ∧ t.tc = s.tc ∧ t.bt = s.bt ∧ t.line = s.line ∧
      t.initDone = s.initDone ∧ t.pendingSend = s.pendingSend ∧ (t.busy = true → t.res = s.res) ∧
      outsideUnchanged s t

/-- R130: BEGIN writes only the six registers, INIT_DONE at its end, and RES at completion. -/
def Obligations.BeginChangesOnlyTheSixRegisters : Prop :=
  ∀ (v : BitVec 8) (s t : State), exec (.beginInit v) s = .next t →
    t.tc.sendDone = s.tc.sendDone ∧ t.tc.dataReady = s.tc.dataReady ∧ t.tc.sending = s.tc.sending ∧
      t.tc.receiving = s.tc.receiving ∧ t.tc.statusRest = s.tc.statusRest ∧ t.tc.rxData = s.tc.rxData ∧
      t.timeout = s.timeout ∧ t.bt = s.bt ∧ t.line = s.line ∧ t.pendingSend = s.pendingSend ∧
      (t.initDone = s.initDone ∨ s.seq = .phase .beginInit 7) ∧ (t.busy = true → t.res = s.res) ∧
      outsideUnchanged s t

/-! ### SEND_FRAME -/

/-- R160, R68: SEND_FRAME's word, its issue, which stores TIMEOUT, and its phases, for every buffer and every length
(R162: the engine checks no bound), with room in BULK's queue at P3 (log 13). That the wait has no bound, and that idle
means SENDING = 0, are the spec's readings (D18). -/
def Obligations.SendFrameFollowsItsPhases : Prop :=
  ∀ (b : BitVec 32) (l : BitVec 16) (s : State),
    (encode (.sendFrame b l)).toNat = 0x3000000000000000 + l.toNat * 2 ^ 32 + b.toNat ∧
    (s.busy = false → ∃ t, exec (.sendFrame b l) s = .next t ∧ atPhase (.sendFrame b l) 0 t ∧
      t.timeout.toNat = l.toNat * s.cfg.responseOffset.toNat + s.cfg.latency.toNat ∧ t.res = s.res ∧
      onlyEngineChanged { s with timeout := t.timeout } t) ∧
    (atPhase (.sendFrame b l) 0 s → exec (.sendFrame b l) s =
      .next { s with
        scratch := { s.scratch with s := statusWord s.tc },
        seq := if s.tc.sending then .phase .sendFrame 0 else .phase .sendFrame 1,
        trace := .read .status (statusWord s.tc) :: s.trace }) ∧
    (atPhase (.sendFrame b l) 1 s → exec (.sendFrame b l) s =
      .next { s with
        bt := { s.bt with src := b }, seq := .phase .sendFrame 2, trace := .wrote .src b :: s.trace }) ∧
    (atPhase (.sendFrame b l) 2 s → exec (.sendFrame b l) s =
      .next { s with
        bt := { s.bt with dst := s.cfg.tcBase + s.cfg.off.axisStatus }, seq := .phase .sendFrame 3,
        trace := .wrote .dst (s.cfg.tcBase + s.cfg.off.axisStatus) :: s.trace }) ∧
    (atPhase (.sendFrame b l) 3 s → pendingCount s.bt < s.cfg.btQueueDepth →
      ∃ t, exec (.sendFrame b l) s = .next t ∧ completedWith 0 t ∧ t.pendingSend = true ∧
        t.bt = { s.bt with
          len := l.zeroExtend 32, done := false, queue := s.bt.queue ++ [⟨s.bt.src, s.bt.dst, l⟩] } ∧
        t.timeout = s.timeout ∧ t.tc = s.tc ∧ t.line = s.line ∧ t.initDone = s.initDone ∧
        outsideUnchanged s t ∧
        t.trace = .completed 0 :: .wrote .len (l.zeroExtend 32) :: s.trace)

/-- R160, R161: with the transmit path idle, SEND_FRAME from its issue takes five steps of ENGINE and leaves the
transfer (buffer, address of the axis/status word, length) submitted, TIMEOUT computed and PENDING_SEND = 1.
Model: log 13. -/
def Obligations.SendFrameSubmitsTheFrame : Prop :=
  ∀ (b : BitVec 32) (l : BitVec 16) (s : State), s.busy = false → s.tc.sending = false →
    pendingCount s.bt < s.cfg.btQueueDepth →
    ∃ t, execSteps (.sendFrame b l) 5 s = .next t ∧ completedWith 0 t ∧ t.pendingSend = true ∧
      t.timeout.toNat = l.toNat * s.cfg.responseOffset.toNat + s.cfg.latency.toNat ∧
      t.bt = { s.bt with
        src := b, dst := s.cfg.tcBase + s.cfg.off.axisStatus, len := l.zeroExtend 32, done := false,
        queue := s.bt.queue ++ [⟨b, s.cfg.tcBase + s.cfg.off.axisStatus, l⟩] } ∧
      t.tc = s.tc ∧ t.line = s.line ∧ t.initDone = s.initDone ∧ outsideUnchanged s t

/-- R161: the timeout calculator: the value, for every length, whatever the state (an exchange that never finished
included); it is at most 4 294 901 760; R161's examples; and TIMEOUT is used at P0 of RECEIVE_RESPONSE alone: every
other step of every command is the same whatever TIMEOUT holds. -/
def Obligations.TimeoutIsComputedAndUsedOnce : Prop :=
  (∀ (b : BitVec 32) (l : BitVec 16) (s : State), s.busy = false → ∃ t, exec (.sendFrame b l) s = .next t ∧
    t.timeout.toNat = l.toNat * s.cfg.responseOffset.toNat + s.cfg.latency.toNat ∧
    t.timeout.toNat ≤ 4294901760 ∧
    (s.cfg.responseOffset = 20 → s.cfg.latency = 13 →
      (l = 1 → t.timeout = 33) ∧ (l = 8 → t.timeout = 173) ∧ (l = 50 → t.timeout = 1013) ∧
      (l = 65535 → t.timeout = 1310713))) ∧
  (∀ (i : Instr) (s t : State) (x : BitVec 32), exec i s = .next t →
    ¬ (s.busy = true ∧ s.seq = .phase .receiveResponse 0) →
    exec i { s with timeout := x } = .next { t with
      timeout := if s.busy = false ∧ i.op = .sendFrame then t.timeout else x })

/-- R224 (a), R160: while SENDING stays 1, SEND_FRAME stays in its wait through any number of ENGINE's steps: it
never completes, TIMEOUT and the facade stay as they are, and no BT register is written. -/
def Obligations.SendFrameHangsWhileSending : Prop :=
  ∀ (b : BitVec 32) (l : BitVec 16) (s : State) (n : Nat), atPhase (.sendFrame b l) 0 s →
    s.tc.sending = true →
    ∃ t, execSteps (.sendFrame b l) n s = .next t ∧ atPhase (.sendFrame b l) 0 t ∧
      t.resValid = s.resValid ∧ t.timeout = s.timeout ∧ t.tc = s.tc ∧ t.bt = s.bt

/-- R160: SEND_FRAME changes no TC register or flag, no word or byte in LINE, no memory; of BT only what its three
writes change; INIT_DONE stays, and TIMEOUT changes only at its issue. -/
def Obligations.SendFrameChangesOnlyTheSubmission : Prop :=
  ∀ (b : BitVec 32) (l : BitVec 16) (s t : State), exec (.sendFrame b l) s = .next t →
    t.tc = s.tc ∧ t.line = s.line ∧ t.initDone = s.initDone ∧
      t.bt.status = s.bt.status ∧ t.bt.doneRest = s.bt.doneRest ∧ t.bt.active = s.bt.active ∧
      (s.busy = true → t.timeout = s.timeout) ∧
      (t.bt = s.bt ∨ s.seq = .phase .sendFrame 1 ∨ s.seq = .phase .sendFrame 2 ∨ s.seq = .phase .sendFrame 3) ∧
      (t.pendingSend = s.pendingSend ∨ s.seq = .phase .sendFrame 3) ∧
      (t.busy = true → t.res = s.res) ∧ outsideUnchanged s t

/-! ### RECEIVE_RESPONSE -/

/-- R176, R175, R110, R226 (a), R239: RECEIVE_RESPONSE's word, its issue and its phases. P0 turns background capture off and
computes REP from TIMEOUT; P1 hands one word with PAYLOAD = REP[7:0] and ACK_REQUEST alone to the transmit path (for REP
above 255, outside the contract, that is the model's reading); P2, P3 and P4 are the three bounded waits, one status read a
step, and where the bound is reached the engine goes on as if the condition had been met; in the 1 ms window of P5, P6 and P7
ready is tested before the deadline at every turn, and P10 is reached only by a clock read at or past T0 + 1000; P8 reads
TC.RX_DATA, which clears DATA_READY exactly when RESP_READ_CLEARS_READY; P9 returns the low byte of that word and P10 FAIL,
both with capture on again and PENDING_SEND = 0. What no clause names is unchanged. Model: log 22, 23, 37. -/
def Obligations.ReceiveResponseFollowsItsPhases : Prop :=
  encode .receiveResponse = 0x4000000000000000 ∧
  ∀ s : State,
    let read := { s with
      scratch := { s.scratch with s := statusWord s.tc, cnt := s.scratch.cnt + 1 },
      trace := .read .status (statusWord s.tc) :: s.trace }
    let bound := s.scratch.cnt + 1 = s.cfg.pollBound
    let rearmed := { s with tc := { s.tc with activateRx := 1 }, pendingSend := false }
    (s.busy = false → ∃ t, exec .receiveResponse s = .next t ∧ atPhase .receiveResponse 0 t ∧ t.res = s.res ∧
      onlyEngineChanged s t) ∧
    (atPhase .receiveResponse 0 s → exec .receiveResponse s =
      .next { s with
        tc := { s.tc with activateRx := 0 },
        scratch := { s.scratch with rep := s.timeout.toNat / repDivisor s.cfg + 2 },
        seq := .phase .receiveResponse 1, trace := .wrote .activateRx 0 :: s.trace }) ∧
    (atPhase .receiveResponse 1 s → ∃ t m, exec .receiveResponse s = .next t ∧
      m.toNat = s.scratch.rep % 256 + 1024 ∧
      t = { s with
        line := { s.line with txWords := s.line.txWords ++ [m] },
        scratch := { s.scratch with cnt := 0 },
        seq := .phase .receiveResponse 2, trace := .wrote .txCmd m :: s.trace }) ∧
    (atPhase .receiveResponse 2 s → (s.tc.sending = true ∨ bound) → exec .receiveResponse s =
      .next { read with
        scratch := { s.scratch with s := statusWord s.tc, cnt := 0 }, seq := .phase .receiveResponse 3 }) ∧
    (atPhase .receiveResponse 2 s → s.tc.sending = false → ¬ bound → exec .receiveResponse s = .next read) ∧
    (atPhase .receiveResponse 3 s → (s.tc.sending = false ∨ bound) → exec .receiveResponse s =
      .next { read with
        scratch := { s.scratch with s := statusWord s.tc, cnt := 0 }, seq := .phase .receiveResponse 4 }) ∧
    (atPhase .receiveResponse 3 s → s.tc.sending = true → ¬ bound → exec .receiveResponse s = .next read) ∧
    (atPhase .receiveResponse 4 s → (s.tc.receiving = false ∨ bound) → exec .receiveResponse s =
      .next { read with seq := .phase .receiveResponse 5 }) ∧
    (atPhase .receiveResponse 4 s → s.tc.receiving = true → ¬ bound → exec .receiveResponse s = .next read) ∧
    (atPhase .receiveResponse 5 s → exec .receiveResponse s =
      .next { s with scratch := { s.scratch with t0 := s.now }, seq := .phase .receiveResponse 6 }) ∧
    (atPhase .receiveResponse 6 s → exec .receiveResponse s =
      .next { s with
        scratch := { s.scratch with s := statusWord s.tc },
        seq := if s.tc.dataReady then .phase .receiveResponse 8 else .phase .receiveResponse 7,
        trace := .read .status (statusWord s.tc) :: s.trace }) ∧
    (atPhase .receiveResponse 7 s → exec .receiveResponse s =
      .next { s with
        seq := if s.scratch.t0.toNat + 1000 ≤ s.now.toNat then .phase .receiveResponse 10
          else .phase .receiveResponse 6 }) ∧
    (atPhase .receiveResponse 8 s → exec .receiveResponse s =
      .next { s with
        tc := { s.tc with dataReady := s.tc.dataReady && !s.cfg.respReadClearsReady },
        scratch := { s.scratch with v := s.tc.rxData },
        seq := .phase .receiveResponse 9, trace := .read .rxData s.tc.rxData :: s.trace }) ∧
    (atPhase .receiveResponse 9 s → ∃ t, exec .receiveResponse s = .next t ∧
      completedWith t.res t ∧ t.res.toNat = s.scratch.v.toNat % 256 ∧ onlyEngineChanged rearmed t ∧
      t.trace = .completed t.res :: .wrote .activateRx 1 :: s.trace) ∧
    (atPhase .receiveResponse 10 s → ∃ t, exec .receiveResponse s = .next t ∧
      completedWith (s.cfg.fail.zeroExtend 64) t ∧ onlyEngineChanged rearmed t ∧
      t.trace = .completed t.res :: .wrote .activateRx 1 :: s.trace)

/-- R175: REP = TIMEOUT div DIV + 2 with DIV = 2 * BIT_SPACER + BIT_WIDTH div 4; DIV >= 1, REP >= 2, REP = 2 exactly
when TIMEOUT < DIV, REP <= 255 for the TIMEOUT of a SEND_FRAME inside its precondition; and R175's examples. That
BIT_WIDTH div 4 is rounded down before the sum is the spec's reading (D8). -/
def Obligations.RepetitionCountIsTheRoundedQuotient : Prop :=
  (∀ s : State, admitted s.cfg = true → atPhase .receiveResponse 0 s →
    1 ≤ 2 * s.cfg.bitSpacer.toNat + s.cfg.bitWidth.toNat / 4 ∧
    ∃ t, exec .receiveResponse s = .next t ∧
      t.scratch.rep = s.timeout.toNat / (2 * s.cfg.bitSpacer.toNat + s.cfg.bitWidth.toNat / 4) + 2 ∧
      2 ≤ t.scratch.rep ∧
      (t.scratch.rep = 2 ↔ s.timeout.toNat < 2 * s.cfg.bitSpacer.toNat + s.cfg.bitWidth.toNat / 4) ∧
      (∀ l : BitVec 16, l.toNat ≤ s.cfg.maxPacketLen.toNat → s.timeout = timeoutOf s.cfg l →
        t.scratch.rep ≤ 255)) ∧
  (∀ c : Config, c.bitSpacer = 112 → c.bitWidth = 40 → repDivisor c = 234 ∧
    repetitionsOf c 173 = 2 ∧ repetitionsOf c 233 = 2 ∧ repetitionsOf c 253 = 3 ∧ repetitionsOf c 1013 = 6) ∧
  (∀ c : Config, c.bitSpacer = 3 → c.bitWidth = 7 → repDivisor c = 7 ∧
    repetitionsOf c 42 = 8 ∧ repetitionsOf c 47 = 8)

/-- R176: from an idle engine, with DATA_READY standing, RECEIVE_RESPONSE completes within 3 * POLL_BOUND + 7 steps of
ENGINE, whatever the other flags are, with the low byte of TC.RX_DATA; capture is on and PENDING_SEND = 0. -/
def Obligations.ReadyResponseIsReturned : Prop :=
  ∀ s : State, admitted s.cfg = true → s.busy = false → s.tc.dataReady = true →
    ∃ n t, n ≤ 3 * s.cfg.pollBound + 7 ∧ execSteps .receiveResponse n s = .next t ∧
      completedWith t.res t ∧ t.res.toNat = s.tc.rxData.toNat % 256 ∧
      t.tc.activateRx = 1 ∧ t.pendingSend = false ∧ t.timeout = s.timeout

/-- R176, R221, R227: a RECEIVE_RESPONSE that nobody answers. With the flags at rest the marker is never seen to start
(W1 meets its bound), no response becomes ready, CLOCK passes 1000 microseconds or more, and the command completes
with FAIL: capture is on again, PENDING_SEND = 0, TIMEOUT and all else of the facade but the marker word is as before. -/
def Obligations.UnansweredRequestTimesOut : Prop :=
  ∀ (s : State) (d : Nat) (rest : List Move), admitted s.cfg = true → pendingAllowed s = true → s.busy = false →
    s.tc.dataReady = false → s.tc.sending = false → s.tc.receiving = false →
    1000 ≤ d → s.now.toNat + d < 2 ^ 64 →
    s.schedule = .issue (encode .receiveResponse) ::
      (List.replicate (s.cfg.pollBound + 6) Move.engine ++ (.clock d :: .engine :: .engine :: rest)) →
    ∃ t m, stepN (s.cfg.pollBound + 10) s = .next t ∧ completedWith (s.cfg.fail.zeroExtend 64) t ∧
      t.tc = { s.tc with activateRx := 1 } ∧ t.pendingSend = false ∧ t.timeout = s.timeout ∧
      t.line = { s.line with txWords := s.line.txWords ++ [m] } ∧ m.getLsbD 10 = true ∧
      t.bt = s.bt ∧ t.initDone = s.initDone ∧ memoryUnchanged s t ∧ t.schedule = rest

/-- R177: at either exit of RECEIVE_RESPONSE what the command has shown is: ACTIVATE_RX 0, one marker word with bit 10
set and bits 8 and 9 clear, only reads, ACTIVATE_RX 1; at least four status reads; TC.RX_DATA at most once, and only
right after a status read that showed DATA_READY; RES is FAIL or below 256. And (f): T0 is the clock at P5 and keeps
that value, and P7 leads to the failing exit only with 1000 microseconds or more between the two reads. The spec marks
R177 as derived from R176. -/
def Obligations.ResponseExchangeShowsOneRequest : Prop :=
  (∀ (s : State) (p : Fin 16), responseInv s → atPhase .receiveResponse p s → (p = 9 ∨ p = 10) →
    ∃ t reads m, exec .receiveResponse s = .next t ∧ t.busy = false ∧
      sinceIssue t.trace = .completed t.res :: .wrote .activateRx 1 ::
        (reads ++ [.wrote .txCmd m, .wrote .activateRx 0]) ∧
      (∀ e ∈ reads, ∃ r v, e = .read r v) ∧
      m.getLsbD 10 = true ∧ m.getLsbD 9 = false ∧ m.getLsbD 8 = false ∧
      4 ≤ readsOf .status reads ∧ readsOf .rxData reads ≤ 1 ∧
      (readsOf .rxData reads = 1 → ∃ w v rest,
        reads = .read .rxData w :: .read .status v :: rest ∧ v.getLsbD 1 = true) ∧
      (t.res = s.cfg.fail.zeroExtend 64 ∨ t.res.toNat < 256) ∧
      (p = 10 → s.scratch.t0.toNat + 1000 ≤ s.now.toNat)) ∧
  (∀ (s t : State) (p : Fin 16), atPhase .receiveResponse p s → exec .receiveResponse s = .next t →
    (t.busy = false → p = 9 ∨ p = 10) ∧
    (p = 5 → t.scratch.t0 = s.now) ∧
    (p ≠ 5 → t.busy = true → t.scratch.t0 = s.scratch.t0) ∧
    (t.seq = .phase .receiveResponse 10 → p = 7 ∧ s.scratch.t0.toNat + 1000 ≤ s.now.toNat))

/-- R177: the record of a RECEIVE_RESPONSE in flight stays as its pseudocode says through every step of every agent. -/
def Obligations.EveryStepKeepsTheResponseRecord : Prop :=
  ∀ s t : State, responseInv s → step s = .next t → responseInv t

/-- R176: RECEIVE_RESPONSE changes of TC only ACTIVATE_RX and, by the read of TC.RX_DATA, DATA_READY; no BT register, no
memory, not TIMEOUT, not INIT_DONE; of LINE only the marker word it adds at P1. -/
def Obligations.ReceiveResponseChangesOnlyCaptureAndMarker : Prop :=
  ∀ s t : State, exec .receiveResponse s = .next t →
    t.tc = { s.tc with activateRx := t.tc.activateRx, dataReady := t.tc.dataReady } ∧
      (t.tc.dataReady = s.tc.dataReady ∨ s.seq = .phase .receiveResponse 8) ∧
      (t.tc.activateRx = s.tc.activateRx ∨ s.seq = .phase .receiveResponse 0 ∨
        s.seq = .phase .receiveResponse 9 ∨ s.seq = .phase .receiveResponse 10) ∧
      t.bt = s.bt ∧ t.timeout = s.timeout ∧ t.initDone = s.initDone ∧
      t.line.txBytes = s.line.txBytes ∧ t.line.partialFrame = s.line.partialFrame ∧
      (t.line.txWords = s.line.txWords ∨
        s.seq = .phase .receiveResponse 1 ∧ ∃ m, t.line.txWords = s.line.txWords ++ [m]) ∧
      (t.pendingSend = s.pendingSend ∨ t.busy = false) ∧
      (t.busy = true → t.res = s.res) ∧ outsideUnchanged s t

/-! ### SEND_RESPONSE -/

/-- R178, R111: SEND_RESPONSE's word and issue; one word with the byte, LAST and ACK goes to the transmit path; then
status reads until SEND_DONE = 1 or the bound, and the command completes with 0 either way. -/
def Obligations.SendResponseFollowsItsPhases : Prop :=
  ∀ (v : BitVec 8) (s : State),
    (encode (.sendResponse v)).toNat = 0x6000000000000000 + v.toNat * 2 ^ 32 ∧
    (s.busy = false → ∃ t, exec (.sendResponse v) s = .next t ∧ atPhase (.sendResponse v) 0 t ∧
      t.res = s.res ∧ onlyEngineChanged s t) ∧
    (atPhase (.sendResponse v) 0 s → ∃ t m, exec (.sendResponse v) s = .next t ∧
      m.toNat = v.toNat + 768 ∧
      t = { s with
        line := { s.line with txWords := s.line.txWords ++ [m] },
        scratch := { s.scratch with cnt := 0 },
        seq := .phase .sendResponse 1, trace := .wrote .txCmd m :: s.trace }) ∧
    (atPhase (.sendResponse v) 1 s → (s.tc.sendDone = true ∨ s.scratch.cnt + 1 = s.cfg.pollBound) →
      ∃ t, exec (.sendResponse v) s = .next t ∧ completedWith 0 t ∧ onlyEngineChanged s t ∧
        t.trace = .completed 0 :: .read .status (statusWord s.tc) :: s.trace) ∧
    (atPhase (.sendResponse v) 1 s → s.tc.sendDone = false → s.scratch.cnt + 1 ≠ s.cfg.pollBound →
      exec (.sendResponse v) s = .next { s with
        scratch := { s.scratch with s := statusWord s.tc, cnt := s.scratch.cnt + 1 },
        trace := .read .status (statusWord s.tc) :: s.trace })

/-- R178, R243 (d): SEND_RESPONSE completes with 0 after at most POLL_BOUND status reads, whatever the flags are: with ENGINE
alone moving; and in every infinite run in which ENGINE goes on, whatever LINE and the others do between the reads, from its
issue on and from any state in which one is in flight. No duty of CLOCK, BULK or LINE is needed. Model: log 30. -/
def Obligations.SendResponseCompletesWithinTheBound : Prop :=
  (∀ (v : BitVec 8) (s : State), admitted s.cfg = true → s.busy = false →
    ∃ n t, n ≤ s.cfg.pollBound + 2 ∧ execSteps (.sendResponse v) n s = .next t ∧ completedWith 0 t ∧
      readsOf .status (sinceIssue t.trace) ≤ s.cfg.pollBound ∧
      t.line.txWords.length = s.line.txWords.length + 1 ∧ t.tc = s.tc ∧ t.bt = s.bt) ∧
  ∀ (moves : Nat → Move) (run : Nat → State) (n : Nat) (v : BitVec 8),
    InfiniteRun moves run → EngineGoesOn moves → NoResetFrom n moves → MachineInv (run n) →
    ((run n).busy = true → (run n).latch = latchOf (.sendResponse v) →
      ∃ m, n < m ∧ completedWith 0 (run m) ∧
        ∀ k, n ≤ k → k < m → (run k).busy = true ∧ (run k).latch = latchOf (.sendResponse v)) ∧
    ((run n).busy = false → moves n = .issue (encode (.sendResponse v)) →
      ∃ m, n < m ∧ completedWith 0 (run m) ∧
        (∀ k, n < k → k < m → (run k).busy = true ∧ (run k).latch = latchOf (.sendResponse v)) ∧
        readsOf .status (sinceIssue (run m).trace) ≤ (run n).cfg.pollBound)

/-- R179 with R237 and R235: through a SEND_RESPONSE no step of any agent changes TC.ACTIVATE_RX, where LINE's contract
holds, that is, once a BEGIN has completed and TC.ENABLE[0] = 1. Before that LINE may write the register. Model: log 16. -/
def Obligations.SendResponseLeavesCaptureAsFound : Prop :=
  ∀ (v : BitVec 8) (s t : State), s.initDone = true → s.tc.enable.getLsbD 0 = true →
    step s = .next t →
    (atPhase (.sendResponse v) 0 s ∨ atPhase (.sendResponse v) 1 s ∨
      (s.busy = false ∧ nextMove s = .issue (encode (.sendResponse v)))) →
    t.tc.activateRx = s.tc.activateRx

/-- R178: SEND_RESPONSE changes no TC register or flag, no BT register, no memory, not TIMEOUT and no ghost bit; of LINE
only the response word it adds at P0. -/
def Obligations.SendResponseChangesOnlyTheTransmitPath : Prop :=
  ∀ (v : BitVec 8) (s t : State), exec (.sendResponse v) s = .next t →
    t.tc = s.tc ∧ t.bt = s.bt ∧ t.timeout = s.timeout ∧ t.initDone = s.initDone ∧
      t.pendingSend = s.pendingSend ∧
      t.line.txBytes = s.line.txBytes ∧ t.line.partialFrame = s.line.partialFrame ∧
      (t.line.txWords = s.line.txWords ∨
        s.seq = .phase .sendResponse 0 ∧ ∃ m, t.line.txWords = s.line.txWords ++ [m]) ∧
      (t.busy = true → t.res = s.res) ∧ outsideUnchanged s t

/-! ### RECEIVE_FRAME and BULK -/

/-- R200, R201: with max_length other than MAX_PACKET_LEN, smaller or greater, RECEIVE_FRAME completes in its issue
step with max_length, makes no access, and leaves the flags and every byte of memory as they were. That the value is
max_length is the spec's choice (decision D25). -/
def Obligations.ShortReadCompletesWithoutAnyCopy : Prop :=
  ∀ (b : BitVec 32) (l : BitVec 16) (s : State), s.busy = false → l ≠ s.cfg.maxPacketLen →
    ∃ t, exec (.receiveFrame b l) s = .next t ∧ completedWith (l.zeroExtend 64) t ∧
      t.trace = .completed (l.zeroExtend 64) :: .issued (encode (.receiveFrame b l)) :: s.trace ∧
      onlyEngineChanged s t

/-- R200: RECEIVE_FRAME's word, its issue on either path, and the phases of the full path; not ready completes at once
with FAIL; the reset action comes after DONE. The count and the wait for the copy are the spec's choices (D25).
Model: log 13, 33. -/
def Obligations.ReceiveFrameFollowsItsPhases : Prop :=
  ∀ (b : BitVec 32) (l : BitVec 16) (s : State),
    (encode (.receiveFrame b l)).toNat = 0x5000000000000000 + l.toNat * 2 ^ 32 + b.toNat ∧
    (s.busy = false → l ≠ s.cfg.maxPacketLen → ∃ t, exec (.receiveFrame b l) s = .next t ∧
      completedWith (l.zeroExtend 64) t ∧ onlyEngineChanged s t ∧
      t.trace = .completed (l.zeroExtend 64) :: .issued (encode (.receiveFrame b l)) :: s.trace) ∧
    (s.busy = false → l = s.cfg.maxPacketLen → ∃ t, exec (.receiveFrame b l) s = .next t ∧
      atPhase (.receiveFrame b l) 0 t ∧ t.res = s.res ∧ onlyEngineChanged s t) ∧
    (atPhase (.receiveFrame b l) 0 s → s.tc.dataReady = false →
      ∃ t, exec (.receiveFrame b l) s = .next t ∧ completedWith (s.cfg.fail.zeroExtend 64) t ∧
        onlyEngineChanged s t ∧
        t.trace = .completed t.res :: .read .status (statusWord s.tc) :: s.trace) ∧
    (atPhase (.receiveFrame b l) 0 s → s.tc.dataReady = true → exec (.receiveFrame b l) s =
      .next { s with
        scratch := { s.scratch with s := statusWord s.tc },
        seq := .phase .receiveFrame 1, trace := .read .status (statusWord s.tc) :: s.trace }) ∧
    (atPhase (.receiveFrame b l) 1 s → exec (.receiveFrame b l) s =
      .next { s with
        bt := { s.bt with src := s.cfg.captureAddr }, seq := .phase .receiveFrame 2,
        trace := .wrote .src s.cfg.captureAddr :: s.trace }) ∧
    (atPhase (.receiveFrame b l) 2 s → exec (.receiveFrame b l) s =
      .next { s with
        bt := { s.bt with dst := b }, seq := .phase .receiveFrame 3, trace := .wrote .dst b :: s.trace }) ∧
    (atPhase (.receiveFrame b l) 3 s → pendingCount s.bt < s.cfg.btQueueDepth →
      exec (.receiveFrame b l) s = .next { s with
        bt := { s.bt with
          len := l.zeroExtend 32, done := false, queue := s.bt.queue ++ [⟨s.bt.src, s.bt.dst, l⟩] },
        seq := .phase .receiveFrame 4, trace := .wrote .len (l.zeroExtend 32) :: s.trace }) ∧
    (atPhase (.receiveFrame b l) 4 s → exec (.receiveFrame b l) s =
      .next { s with
        seq := if s.bt.done then .phase .receiveFrame 5 else .phase .receiveFrame 4,
        trace := .read .done (doneWord s.bt) :: s.trace }) ∧
    (atPhase (.receiveFrame b l) 5 s → ∃ t, exec (.receiveFrame b l) s = .next t ∧
      completedWith (l.zeroExtend 64) t ∧
      onlyEngineChanged { s with tc := { s.tc with dataReady := false } } t ∧
      t.trace = .completed (l.zeroExtend 64) :: .wrote .rxData 0 :: s.trace)

/-- R200: RECEIVE_FRAME itself changes of TC only DATA_READY, at P5; of BT what its three writes change; no memory
(the copy is BULK's), not TIMEOUT and no ghost bit. -/
def Obligations.ReceiveFrameChangesOnlySubmissionAndReady : Prop :=
  ∀ (b : BitVec 32) (l : BitVec 16) (s t : State), exec (.receiveFrame b l) s = .next t →
    t.tc = { s.tc with dataReady := t.tc.dataReady } ∧
      (t.tc.dataReady = s.tc.dataReady ∨ s.seq = .phase .receiveFrame 5) ∧
      t.bt.status = s.bt.status ∧ t.bt.doneRest = s.bt.doneRest ∧ t.bt.active = s.bt.active ∧
      (t.bt = s.bt ∨ s.seq = .phase .receiveFrame 1 ∨ s.seq = .phase .receiveFrame 2 ∨
        s.seq = .phase .receiveFrame 3) ∧
      t.line = s.line ∧ t.timeout = s.timeout ∧ t.initDone = s.initDone ∧
      t.pendingSend = s.pendingSend ∧ (t.busy = true → t.res = s.res) ∧ outsideUnchanged s t

/-- R200, R241, R71: a RECEIVE_FRAME of full length issued while DATA_READY = 1, whose copy BULK then makes (in one of
the orders it may choose), completes with MAX_PACKET_LEN; the buffer holds the capture buffer byte for byte, every
byte of memory outside the buffer reads as before, and DATA_READY has been reset. Model: log 15. -/
def Obligations.CapturedFrameIsDelivered : Prop :=
  ∀ (b : BitVec 32) (s : State) (rest : List Move), admitted s.cfg = true → Memory.wf s.mem →
    s.busy = false → s.tc.dataReady = true → s.bt.active = none → s.bt.queue = [] →
    transferAllowed s.cfg ⟨s.cfg.captureAddr, b, s.cfg.maxPacketLen⟩ = true →
    s.schedule = .issue (encode (.receiveFrame b s.cfg.maxPacketLen)) ::
      (List.replicate 4 Move.engine ++ (.bulk .start ::
        (copyMoves s.cfg.maxPacketLen.toNat ++ (.engine :: .engine :: rest)))) →
    ∃ t, stepN (8 + 2 * s.cfg.maxPacketLen.toNat) s = .next t ∧
      completedWith (s.cfg.maxPacketLen.zeroExtend 64) t ∧ t.tc = { s.tc with dataReady := false } ∧
      t.bt.done = true ∧ t.bt.active = none ∧ t.bt.queue = [] ∧ t.schedule = rest ∧
      (∀ k, k < s.cfg.maxPacketLen.toNat →
        memRead (b + BitVec.ofNat 32 k) t = memRead (s.cfg.captureAddr + BitVec.ofNat 32 k) s) ∧
      (∀ a, (∀ k, k < s.cfg.maxPacketLen.toNat → a ≠ b + BitVec.ofNat 32 k) → memRead a t = memRead a s)

/-- R241, R67: a memory-to-register transfer hands the source bytes to the transmit path in ascending address order,
changes no memory, and finishes with BT.DONE[0] = 1 when nothing else is queued. Model: log 15, 17. -/
def Obligations.SentFrameIsHandedOverInOrder : Prop :=
  ∀ (x : Transfer) (s : State) (rest : List Move), admitted s.cfg = true →
    s.bt.active = none → s.bt.queue = [x] → x.dst = regAddr s.cfg .axisStatus →
    transferAllowed s.cfg x = true →
    s.schedule = .bulk .start :: (copyMoves x.len.toNat ++ rest) →
    ∃ t, stepN (1 + 2 * x.len.toNat) s = .next t ∧
      t.line.txBytes = s.line.txBytes ++
        (List.range x.len.toNat).map (fun k => memRead (x.src + BitVec.ofNat 32 k) s) ∧
      t.bt.done = true ∧ t.bt.active = none ∧ t.bt.queue = [] ∧ memoryUnchanged s t ∧
      t.schedule = rest ∧ t.tc = s.tc ∧ t.line.txWords = s.line.txWords

/-- R240, R241, R66, U4: the moves of BULK. With none active it takes the oldest submitted transfer. It reads one byte of the
active transfer, once, and writes or hands over one byte that it has read; a copy in any order across the bytes, a send in
ascending order. A byte of a copy goes to dst + i and no other byte of memory changes; a byte of a send goes to the end of the
transmit path and memory stands. The move that leaves no byte to do finishes the transfer and, with none queued, sets
BT.DONE[0]. Every other move is none BULK has. Model: log 15, 17, 19, 35. -/
def Obligations.BulkMovesOneByteAtATime : Prop :=
  ∀ s : State, Memory.wf s.mem →
    (∀ x q, s.bt.queue = x :: q → s.bt.active = none → bulkMove .start s =
      .next { s with bt := { s.bt with
        queue := q, active := some ⟨x, List.replicate x.len.toNat .waiting⟩ } }) ∧
    (s.bt.queue = [] ∨ s.bt.active ≠ none → bulkMove .start s = .refused .noSuchMove) ∧
    (∀ v d, bulkMove (.noise v d) s = .next { s with bt := { s.bt with status := v, doneRest := d } }) ∧
    (s.bt.active = none → ∀ i, bulkMove (.read i) s = .refused .noSuchMove ∧
      bulkMove (.write i) s = .refused .noSuchMove) ∧
    ∀ a, s.bt.active = some a → ∀ i,
      let toPath := a.xfer.dst = s.cfg.tcBase + s.cfg.off.axisStatus
      let mayRead := a.bytes[i]? = some .waiting ∧ (toPath → ∀ j, j < i → a.bytes[j]? ≠ some .waiting)
      let mayWrite := fun b => a.bytes[i]? = some (.held b) ∧ (toPath → ∀ j, j < i → a.bytes[j]? = some .done)
      let after := a.bytes.set i .done
      (mayRead → bulkMove (.read i) s =
        .next { s with bt := { s.bt with
          active := some ⟨a.xfer, a.bytes.set i (.held (memRead (a.xfer.src + BitVec.ofNat 32 i) s))⟩ } }) ∧
      (¬ mayRead → bulkMove (.read i) s = .refused .noSuchMove) ∧
      (∀ b, mayWrite b → ∃ t, bulkMove (.write i) s = .next t ∧
        t = { s with
          mem := t.mem, line := { s.line with txBytes := t.line.txBytes },
          bt := { s.bt with active := t.bt.active, done := t.bt.done } } ∧
        ((∀ c ∈ after, c = .done) → t.bt.active = none ∧ t.bt.done = s.bt.queue.isEmpty) ∧
        ((∃ c ∈ after, c ≠ .done) → t.bt.active = some ⟨a.xfer, after⟩ ∧ t.bt.done = s.bt.done) ∧
        (toPath → t.line.txBytes = s.line.txBytes ++ [b] ∧ memoryUnchanged s t) ∧
        (¬ toPath → t.line.txBytes = s.line.txBytes ∧ memRead (a.xfer.dst + BitVec.ofNat 32 i) t = b ∧
          ∀ a', a' ≠ a.xfer.dst + BitVec.ofNat 32 i → memRead a' t = memRead a' s)) ∧
      ((∀ b, ¬ mayWrite b) → bulkMove (.write i) s = .refused .noSuchMove)

/-- R162, R241, R69, U1, U12: which submitted transfers are outside the contract: no byte, a range that wraps past 2^32, a
source or a destination that meets a register, more than MAX_PACKET_LEN bytes or bytes of the capture buffer for the transmit
path, a copy whose ranges overlap or whose destination meets the capture buffer. Exactly while one is pending the step is
refused by that name, whoever's turn it is. So a SEND_FRAME outside its length precondition makes all its accesses and
completes, and with its submission the run ends. Model: log 12, 14. -/
def Obligations.TransferOutsideTheContractEndsTheRun : Prop :=
  ∀ s : State, admitted s.cfg = true →
    (step s = .refused .transferOutsideContract ↔
      ∃ x : Transfer, ((∃ a, s.bt.active = some a ∧ a.xfer = x) ∨ x ∈ s.bt.queue) ∧
        (x.len = 0 ∨ 2 ^ 32 < x.src.toNat + x.len.toNat ∨
          (∃ r ∈ allRegs, rangesMeet x.src x.len.toNat (regAddr s.cfg r) 4) ∨
          (x.dst = s.cfg.tcBase + s.cfg.off.axisStatus ∧
            (s.cfg.maxPacketLen.toNat < x.len.toNat ∨
              rangesMeet x.src x.len.toNat s.cfg.captureAddr s.cfg.maxPacketLen.toNat)) ∨
          (x.dst ≠ s.cfg.tcBase + s.cfg.off.axisStatus ∧
            (2 ^ 32 < x.dst.toNat + x.len.toNat ∨
              (∃ r ∈ allRegs, rangesMeet x.dst x.len.toNat (regAddr s.cfg r) 4) ∨
              rangesMeet x.src x.len.toNat x.dst x.len.toNat ∨
              rangesMeet x.dst x.len.toNat s.cfg.captureAddr s.cfg.maxPacketLen.toNat)))) ∧
    (∀ (b : BitVec 32) (l : BitVec 16), s.busy = false → s.tc.sending = false →
      pendingCount s.bt < s.cfg.btQueueDepth → (l = 0 ∨ s.cfg.maxPacketLen.toNat < l.toNat) →
      ∃ t, execSteps (.sendFrame b l) 5 s = .next t ∧ completedWith 0 t ∧
        t.timeout.toNat = l.toNat * s.cfg.responseOffset.toNat + s.cfg.latency.toNat ∧
        step t = .refused .transferOutsideContract)

/-- R243 (b), R224 (b): in every infinite run in which BULK keeps its duty and ENGINE goes on, a RECEIVE_FRAME that makes its
status read with no transfer pending completes, whatever LINE does. Model: log 30. -/
def Obligations.BulkDutyEndsTheCopy : Prop :=
  ∀ (moves : Nat → Move) (run : Nat → State) (n : Nat) (b : BitVec 32) (l : BitVec 16),
    InfiniteRun moves run → EngineGoesOn moves → NoResetFrom n moves → BulkDuty run → MachineInv (run n) →
    atPhase (.receiveFrame b l) 0 (run n) → pendingCount (run n).bt = 0 → CompletesFrom n run

/-! ### Reset, the whole machine -/

/-- R260, R263: the reset input, in one step and at any moment: the values of R260, no facade access, and everything
the facade, BULK, LINE and memory hold stands. Model: log 31. -/
def Obligations.ResetInputClearsTheEngine : Prop :=
  ∀ s : State, admitted s.cfg = true → pendingAllowed s = true → nextMove s = .reset →
    ∃ t, step s = .next t ∧ t.busy = false ∧ t.seq = .idle ∧ t.timeout = 0 ∧ t.res = 0 ∧
      t.resValid = false ∧ t.latch = ⟨0, 0, 0⟩ ∧ t.initDone = false ∧ t.pendingSend = false ∧
      t.tc = s.tc ∧ t.bt = s.bt ∧ t.line = s.line ∧ memoryUnchanged s t ∧ t.now = s.now ∧
      t.cfg = s.cfg ∧ t.trace = .reset :: s.trace

/-- R261, R262: the values the spec gives after reset, under every configuration; `State.reset` is such a state.
Model: log 3. -/
def Obligations.ResetStateIsAsListed : Prop :=
  (∀ c : Config,
    let s := State.resetWith c
    s.timeout = 0 ∧ s.res = 0 ∧ s.resValid = false ∧ s.latch = ⟨0, 0, 0⟩ ∧ s.busy = false ∧
      s.seq = .idle ∧ s.initDone = false ∧ s.pendingSend = false ∧ s.bt.done = true ∧
      s.bt.active = none ∧ s.bt.queue = [] ∧ s.line = ⟨[], [], []⟩ ∧ s.cfg = c) ∧
  ∃ c : Config, admitted c = true ∧ State.reset = State.resetWith c

/-- R25, R26, R45, R240: the invariant holds after reset, under every configuration. -/
def Obligations.InvariantHoldsAfterReset : Prop :=
  ∀ c : Config, MachineInv (State.resetWith c) ∧ responseInv (State.resetWith c)

/-- R25 (SEQ = IDLE exactly when BUSY = 0, SEQ names a phase of the latched command), R22, R26, R45 (BT.DONE[0] = 1
exactly when nothing is pending), R240 (the queue's depth) and the canonical form of memory: every step of every
agent keeps them; and from every state it keeps the parameters of R7 (R266). Model: log 2, 13, 15. -/
def Obligations.EveryStepKeepsTheInvariant : Prop :=
  ∀ s t : State, step s = .next t → t.cfg = s.cfg ∧ (MachineInv s → MachineInv t)

/-- R220: nothing is raised: from a state that meets the invariant no step faults, whatever agent moves and however; a
command that completes does so with a value in RES, and that is all the run shows of it. That a state outside the invariant
faults is the model's. Model: log 28. -/
def Obligations.EngineRaisesNothing : Prop :=
  (∀ (s : State) (f : Fault), MachineInv s → step s ≠ .fault f) ∧
  (∀ (i : Instr) (s t : State), exec i s = .next t → t.busy = false →
    t.resValid = true ∧ t.seq = .idle ∧ ∃ shown, t.trace = .completed t.res :: shown)

/-- R21: TIMEOUT is written only by the issue of a SEND_FRAME, and by reset. -/
def Obligations.TimeoutIsWrittenOnlyBySendFrame : Prop :=
  ∀ s t : State, step s = .next t → t.timeout ≠ s.timeout →
    nextMove s = .reset ∨
    ∃ w b l, nextMove s = .issue w ∧ s.busy = false ∧ decode w = .ok (.sendFrame b l) ∧
      t.timeout.toNat = l.toNat * s.cfg.responseOffset.toNat + s.cfg.latency.toNat

/-- R48, R230: NOW never decreases, and only CLOCK's move changes it. Model: log 21. -/
def Obligations.TimeNeverGoesBack : Prop :=
  ∀ s t : State, step s = .next t →
    s.now.toNat ≤ t.now.toNat ∧ (t.now ≠ s.now → ∃ d, nextMove s = .clock d ∧ t.now.toNat = s.now.toNat + d)

/-- R243 (a): in every infinite run in which CLOCK keeps its duty and ENGINE goes on, a BEGIN, a HANDLE_COLLISION or a
RECEIVE_RESPONSE in flight completes, whatever LINE, BULK and HOST do; NOW being able to show the end of the command's wait.
Model: log 21, 30. -/
def Obligations.ClockDutyEndsTheTimedCommands : Prop :=
  ∀ (moves : Nat → Move) (run : Nat → State) (n : Nat) (i : Instr),
    InfiniteRun moves run → EngineGoesOn moves → NoResetFrom n moves → ClockDuty run → MachineInv (run n) →
    (∀ m, n ≤ m → (∀ k, n ≤ k → k ≤ m → (run k).busy = true) → waitFits (run m)) →
    i.op ∈ [Op.beginInit, .handleCollision, .receiveResponse] →
    (run n).busy = true → (run n).latch = latchOf i → CompletesFrom n run

/-- R14: once a run is over (HOST issues no further command, BUSY = 0, nothing pending in BULK), what it shows is final:
nothing is added to it and TIMEOUT and RES stand, unless the reset input is asserted. Model: log 4, 26. -/
def Obligations.OverRunShowsNothingMore : Prop :=
  ∀ (n : Nat) (s t : State), runOver n s = true → stepN n s = .next t →
    t.busy = false ∧ pendingCount t.bt = 0 ∧
    ∃ resets, t.trace = List.replicate resets .reset ++ s.trace ∧
      (resets = 0 → t.timeout = s.timeout ∧ t.res = s.res ∧ t.resValid = s.resValid)

/-- R238, R239, R225: where LINE's contract holds (a BEGIN has completed and TC.ENABLE[0] = 1), DATA_READY falls only by
ENGINE's reset action (RECEIVE_FRAME P5) or, when RESP_READ_CLEARS_READY, by its read of TC.RX_DATA (RECEIVE_RESPONSE P8). Model: log 16. -/
def Obligations.DataReadyFallsOnlyByTheEngine : Prop :=
  ∀ s t : State, s.initDone = true → s.tc.enable.getLsbD 0 = true →
    s.tc.dataReady = true → step s = .next t → t.tc.dataReady = false →
    nextMove s = .engine ∧
      (s.seq = .phase .receiveFrame 5 ∨
        (s.seq = .phase .receiveResponse 8 ∧ s.cfg.respReadClearsReady = true))

/-- R235 to R238, R49, R77, R47, R67, R278: what LINE may do, and what it leaves. In every state it sets and clears SEND_DONE,
SENDING and RECEIVING, sets DATA_READY, changes TC.RX_DATA, receives or drops a byte, and takes the oldest word or byte of the
transmit path; while ACTIVATE_RX[0] = 1 and no captured frame waits it writes any byte of the capture buffer and stages a
frame, its first byte at CAPTURE_ADDR; each changes exactly what it names. A byte that arrives while capture is off is lost
with its frame. Where no contract holds (no BEGIN has completed, or TC.ENABLE[0] = 0) it may do these at any time, clear
DATA_READY and write the six registers too. Whatever the move, it changes TC, its own lists and memory at most, and of memory
only bytes of the capture buffer. Where the contract holds no move of LINE changes ACTIVATE_RX, ENABLE or the four
configuration registers or clears DATA_READY; while capture is off or a captured frame waits none writes memory; and while
capture is off the partly received frame only stands or is lost. Model: log 16, 17, 18, 19, 35. -/
def Obligations.LineKeepsItsContract : Prop :=
  ∀ s : State, Memory.wf s.mem →
    let contract := s.initDone = true ∧ s.tc.enable.getLsbD 0 = true
    let capture := s.tc.activateRx.getLsbD 0 = true
    let mayWrite := ¬ contract ∨ (capture ∧ s.tc.dataReady = false)
    let frame := s.line.partialFrame
    (∀ sendDone sending receiving rest, lineMove (.flags sendDone sending receiving rest) s =
      .next { s with tc := { s.tc with
        sendDone := sendDone, sending := sending, receiving := receiving, statusRest := rest } }) ∧
    (∀ cause, lineMove (.ready cause) s = .next { s with tc := { s.tc with dataReady := true } }) ∧
    (∀ v, lineMove (.response v) s = .next { s with tc := { s.tc with rxData := v } }) ∧
    (∀ b, ¬ contract ∨ capture →
      lineMove (.hear b) s = .next { s with line := { s.line with partialFrame := frame ++ [b] } }) ∧
    (∀ b, contract → ¬ capture →
      lineMove (.hear b) s = .next { s with line := { s.line with partialFrame := [] } }) ∧
    lineMove .forget s = .next { s with line := { s.line with partialFrame := [] } } ∧
    (∀ i b, mayWrite → i < s.cfg.maxPacketLen.toNat → ∃ t, lineMove (.stage i b) s = .next t ∧
      t = { s with mem := t.mem } ∧ memRead (s.cfg.captureAddr + BitVec.ofNat 32 i) t = b ∧
      ∀ a, a ≠ s.cfg.captureAddr + BitVec.ofNat 32 i → memRead a t = memRead a s) ∧
    (mayWrite → frame.length ≤ s.cfg.maxPacketLen.toNat → ∃ t, lineMove .stageFrame s = .next t ∧
      t = { s with line := { s.line with partialFrame := [] }, mem := t.mem } ∧
      (∀ k b, frame[k]? = some b → memRead (s.cfg.captureAddr + BitVec.ofNat 32 k) t = b) ∧
      ∀ a, (∀ k, k < frame.length → a ≠ s.cfg.captureAddr + BitVec.ofNat 32 k) → memRead a t = memRead a s) ∧
    (∀ w ws, s.line.txWords = w :: ws →
      lineMove .sendWord s = .next { s with line := { s.line with txWords := ws } }) ∧
    (s.line.txWords = [] → lineMove .sendWord s = .refused .noSuchMove) ∧
    (∀ b bs, s.line.txBytes = b :: bs →
      lineMove .sendByte s = .next { s with line := { s.line with txBytes := bs } }) ∧
    (s.line.txBytes = [] → lineMove .sendByte s = .refused .noSuchMove) ∧
    (¬ contract → lineMove .unready s = .next { s with tc := { s.tc with dataReady := false } } ∧
      ∀ v,
        lineMove (.config .activateRx v) s = .next { s with tc := { s.tc with activateRx := v } } ∧
        lineMove (.config .preambleLen v) s = .next { s with tc := { s.tc with preambleLen := v } } ∧
        lineMove (.config .padLen v) s = .next { s with tc := { s.tc with padLen := v } } ∧
        lineMove (.config .dataBitWidth v) s = .next { s with tc := { s.tc with dataBitWidth := v } } ∧
        lineMove (.config .acceptance v) s = .next { s with tc := { s.tc with acceptance := v } } ∧
        lineMove (.config .enable v) s = .next { s with tc := { s.tc with enable := v } }) ∧
    ∀ (m : LineMove) (t : State), lineMove m s = .next t →
      t = { s with tc := t.tc, line := t.line, mem := t.mem } ∧
      (∀ a : BitVec 32, (∀ k, k < s.cfg.maxPacketLen.toNat → a ≠ s.cfg.captureAddr + BitVec.ofNat 32 k) →
        memRead a t = memRead a s) ∧
      (m = .stageFrame → t.line.partialFrame = [] ∧
        ∀ k b, frame[k]? = some b → memRead (s.cfg.captureAddr + BitVec.ofNat 32 k) t = b) ∧
      (contract →
        t.tc = { s.tc with
          sendDone := t.tc.sendDone, dataReady := t.tc.dataReady, sending := t.tc.sending,
          receiving := t.tc.receiving, statusRest := t.tc.statusRest, rxData := t.tc.rxData } ∧
        (s.tc.dataReady = true → t.tc.dataReady = true) ∧
        (¬ capture ∨ s.tc.dataReady = true → memoryUnchanged s t) ∧
        (¬ capture → t.line.partialFrame = frame ∨ t.line.partialFrame = []))

/-- R242, R276, R47, R73, R60: HOST writes any byte of memory outside the facade registers, the capture buffer and the buffer
of a RECEIVE_FRAME in flight, the buffer of a sent frame included: that byte holds the value, every other byte and all other
state but the move taken off stand. A write in one of the three is outside the contract and is refused. Model: log 25. -/
def Obligations.HostWritesOneByteOfMemory : Prop :=
  ∀ (s : State) (a : BitVec 32) (b : Byte), admitted s.cfg = true → pendingAllowed s = true → Memory.wf s.mem →
    nextMove s = .hostWrite a b →
    let inRegisters := ∃ r ∈ allRegs, ∃ k, k < 4 ∧ a = regAddr s.cfg r + BitVec.ofNat 32 k
    let inCaptureBuffer := ∃ k, k < s.cfg.maxPacketLen.toNat ∧ a = s.cfg.captureAddr + BitVec.ofNat 32 k
    let inBufferInFlight := ∃ (buffer : BitVec 32) (length : BitVec 16) (k : Nat),
      s.busy = true ∧ s.latch = latchOf (.receiveFrame buffer length) ∧
        k < length.toNat ∧ a = buffer + BitVec.ofNat 32 k
    (¬ inRegisters → ¬ inCaptureBuffer → ¬ inBufferInFlight →
      ∃ t, step s = .next t ∧ memRead a t = b ∧ (∀ a', a' ≠ a → memRead a' t = memRead a' s) ∧
        t = { popMove s with mem := t.mem }) ∧
    (inRegisters ∨ inCaptureBuffer ∨ inBufferInFlight → step s = .refused .hostOutsideContract)

/-- R62: ENGINE reads and writes no byte of memory: whatever memory holds, a command's step is the same and leaves all
of it as it was. -/
def Obligations.EngineNeverTouchesMemory : Prop :=
  ∀ (i : Instr) (s t : State) (m : Memory), exec i s = .next t →
    t.mem = s.mem ∧ exec i { s with mem := m } = .next { t with mem := m }

/-- R28, R265: no operation depends on INIT_DONE or PENDING_SEND: with other ghost bits the same step is made, and
differs afterwards in the ghost bits alone. Model: log 27. -/
def Obligations.GhostBitsDecideNothing : Prop :=
  ∀ (i : Instr) (s t : State) (x y : Bool), exec i s = .next t →
    ∃ t', exec i { s with initDone := x, pendingSend := y } = .next t' ∧
      t' = { t with initDone := t'.initDone, pendingSend := t'.pendingSend }

/-- R8, R7, U21: a configuration that breaks one of (a) to (h), or the range R7 gives an OFF_* (a multiple of 4) or
BT_QUEUE_DEPTH (at least 2), is given no meaning: every step is refused by name.
Model: log 32. -/
def Obligations.UnadmittedConfigurationIsRefused : Prop :=
  ∀ s : State,
    (¬ (1 ≤ s.cfg.maxPacketLen.toNat ∧ s.cfg.maxPacketLen.toNat ≤ 65534) ∨
     ¬ 1 ≤ 2 * s.cfg.bitSpacer.toNat + s.cfg.bitWidth.toNat / 4 ∨
     ¬ (s.cfg.maxPacketLen.toNat * s.cfg.responseOffset.toNat + s.cfg.latency.toNat) /
         (2 * s.cfg.bitSpacer.toNat + s.cfg.bitWidth.toNat / 4) + 2 ≤ 255 ∨
     ¬ s.cfg.degree ≤ 7 ∨ ¬ 1 ≤ s.cfg.pollBound ∨ ¬ 1000000 ≤ s.cfg.clockHz ∨
     (∃ r ∈ allRegs, ∃ r' ∈ allRegs, r ≠ r' ∧ regAddr s.cfg r = regAddr s.cfg r') ∨
     (∃ r ∈ allRegs, (regAddr s.cfg r).toNat % 4 ≠ 0) ∨
     (∃ r ∈ allRegs, ∃ k j, k < 4 ∧ j < s.cfg.maxPacketLen.toNat ∧
       regAddr s.cfg r + BitVec.ofNat 32 k = s.cfg.captureAddr + BitVec.ofNat 32 j) ∨
     (∃ r ∈ allRegs, (regOff s.cfg r).toNat % 4 ≠ 0) ∨ ¬ 2 ≤ s.cfg.btQueueDepth ∨
     ¬ (1 ≤ s.cfg.mode ∧ s.cfg.mode ≤ 4)) →
    step s = .refused .configNotAdmitted

/-- R107, R162, D39, R240, U10: no command is refused for its operands: `exec` refuses a command exactly when another one is
in flight, or when its write of BT.LEN finds BT_QUEUE_DEPTH transfers pending. Model: log 10, 13. -/
def Obligations.CommandsAreRefusedExactlyByPortAndQueue : Prop :=
  ∀ (i : Instr) (s : State) (r : Refusal), exec i s = .refused r ↔
    (r = .commandInFlight ∧ s.busy = true ∧ s.latch ≠ latchOf i) ∨
    (r = .bulkQueueFull ∧ s.cfg.btQueueDepth ≤ pendingCount s.bt ∧ atPhase i 3 s ∧
      ∃ b l, i = .sendFrame b l ∨ i = .receiveFrame b l)

/-- R51: every transfer of control inside a command goes forward, ends the command, or is one of the nine loops. -/
def Obligations.ControlGoesForwardButForTheLoops : Prop :=
  ∀ (i : Instr) (p : Fin 16) (s t : State), atPhase i p s → exec i s = .next t →
    t.seq = .idle ∨
    ∃ q : Fin 16, t.seq = .phase i.op q ∧ (p < q ∨ (i.op, p.val, q.val) ∈ loops)

/-- R50, R271: the two exchange state machines, transition by transition: CAN_START, SEND_FRAME and RECEIVE_RESPONSE issued,
CAN_START completed with 0, RECEIVE_RESPONSE completed with a byte or with FAIL; BEGIN completed, DATA_READY set by LINE for a
whole frame it has staged, a RECEIVE_FRAME of full length completed with a count, SEND_RESPONSE issued and completed. No step
makes a transition that is not in the two lists; in particular a CAN_START issued while TRANSMITTING changes no phase, and
DATA_READY set for a response byte, or with nothing staged, is no captured frame. Model: log 38. -/
def Obligations.ExchangePhasesFollowTheCommands : Prop :=
  ∀ s t : State, step s = .next t →
    (s.busy = false →
      (nextMove s = .issue (encode .canStart) →
        senderNext .idle s t = .carrierSense ∧ senderNext .transmitting s t = .transmitting) ∧
      (∀ b l, nextMove s = .issue (encode (.sendFrame b l)) → senderNext .carrierSense s t = .transmitting) ∧
      (nextMove s = .issue (encode .receiveResponse) → senderNext .transmitting s t = .awaitingAck) ∧
      (∀ v, nextMove s = .issue (encode (.sendResponse v)) →
        ∀ staged, receiverNext .deliveredToCaller staged s t = .sendAck)) ∧
    (nextMove s = .engine →
      (atPhase .canStart 0 s → senderNext .carrierSense s t = if s.tc.receiving then .idle else .carrierSense) ∧
      (atPhase .receiveResponse 9 s → senderNext .awaitingAck s t = .idle ∧
        exchangeOutcome s t = some .ackReceived ∧ t.pendingSend = false) ∧
      (atPhase .receiveResponse 10 s → senderNext .awaitingAck s t = .idle ∧
        exchangeOutcome s t = some .timeout ∧ t.pendingSend = false) ∧
      (∀ b l, atPhase (.sendFrame b l) 3 s → senderNext .transmitting s t = .transmitting ∧ t.pendingSend = true) ∧
      (∀ v staged, atPhase (.beginInit v) 7 s → receiverNext .unarmed staged s t = .idle) ∧
      (∀ b staged, atPhase (.receiveFrame b s.cfg.maxPacketLen) 5 s →
        receiverNext .frameCaptured staged s t = .deliveredToCaller) ∧
      (∀ b staged, atPhase (.receiveFrame b s.cfg.maxPacketLen) 0 s →
        receiverNext .frameCaptured staged s t = .frameCaptured) ∧
      (∀ v staged, atPhase (.sendResponse v) 1 s → t.busy = false →
        receiverNext .sendAck staged s t = if armed s then .idle else .unarmed)) ∧
    (nextMove s = .line (.ready .frame) → s.tc.dataReady = false →
      receiverNext .idle true s t = .frameCaptured ∧ ∀ staged, stagedNext staged s = false) ∧
    (nextMove s = .line (.ready .response) → ∀ staged,
      receiverNext .idle staged s t = (if armed s then .idle else .unarmed) ∧ stagedNext staged s = staged) ∧
    (∀ q staged, receiverNext q staged s t = .frameCaptured → q = .frameCaptured ∨
      (staged = true ∧ nextMove s = .line (.ready .frame) ∧ s.tc.dataReady = false)) ∧
    (stagedNext false s = true ↔ armed s = true ∧
      (nextMove s = .line .stageFrame ∧ s.line.partialFrame ≠ [] ∨ ∃ i b, nextMove s = .line (.stage i b))) ∧
    (nextMove s = .reset → ∀ p q staged, senderNext p s t = .idle ∧ receiverNext q staged s t = .unarmed ∧
      stagedNext staged s = false) ∧
    (nextMove s ≠ .reset → ∀ p, senderNext p s t = p ∨ (p, senderNext p s t) ∈
      [(.idle, .carrierSense), (.carrierSense, .idle), (.carrierSense, .transmitting),
       (.transmitting, .awaitingAck), (.awaitingAck, .idle)]) ∧
    (nextMove s ≠ .reset → ∀ q staged, receiverNext q staged s t = q ∨ (q, receiverNext q staged s t) ∈
      [(.unarmed, .idle), (.idle, .unarmed), (.idle, .frameCaptured), (.frameCaptured, .deliveredToCaller),
       (.deliveredToCaller, .sendAck), (.deliveredToCaller, .frameCaptured), (.sendAck, .idle),
       (.sendAck, .unarmed)])
end

