-- ==== Sys2Proof/Laws/State.lean ====
section
/-! SUPPORT. What each named update leaves and changes, field by field. -/

namespace Sys2Proof.Machine

/-! ### record -/

@[simp] theorem record_cfg (e : Event) (s : State) : (record e s).cfg = s.cfg := rfl
@[simp] theorem record_timeout (e : Event) (s : State) : (record e s).timeout = s.timeout := rfl
@[simp] theorem record_res (e : Event) (s : State) : (record e s).res = s.res := rfl
@[simp] theorem record_resValid (e : Event) (s : State) : (record e s).resValid = s.resValid := rfl
@[simp] theorem record_latch (e : Event) (s : State) : (record e s).latch = s.latch := rfl
@[simp] theorem record_busy (e : Event) (s : State) : (record e s).busy = s.busy := rfl
@[simp] theorem record_seq (e : Event) (s : State) : (record e s).seq = s.seq := rfl
@[simp] theorem record_scratch (e : Event) (s : State) : (record e s).scratch = s.scratch := rfl
@[simp] theorem record_initDone (e : Event) (s : State) : (record e s).initDone = s.initDone := rfl
@[simp] theorem record_pendingSend (e : Event) (s : State) : (record e s).pendingSend = s.pendingSend := rfl
@[simp] theorem record_tc (e : Event) (s : State) : (record e s).tc = s.tc := rfl
@[simp] theorem record_bt (e : Event) (s : State) : (record e s).bt = s.bt := rfl
@[simp] theorem record_line (e : Event) (s : State) : (record e s).line = s.line := rfl
@[simp] theorem record_mem (e : Event) (s : State) : (record e s).mem = s.mem := rfl
@[simp] theorem record_now (e : Event) (s : State) : (record e s).now = s.now := rfl
@[simp] theorem record_fresh (e : Event) (s : State) : (record e s).fresh = s.fresh := rfl
@[simp] theorem record_schedule (e : Event) (s : State) : (record e s).schedule = s.schedule := rfl
@[simp] theorem record_trace (e : Event) (s : State) : (record e s).trace = e :: s.trace := rfl

/-! ### goTo -/

@[simp] theorem goTo_cfg (op : Op) (p : Fin 16) (s : State) : (goTo op p s).cfg = s.cfg := rfl
@[simp] theorem goTo_timeout (op : Op) (p : Fin 16) (s : State) : (goTo op p s).timeout = s.timeout := rfl
@[simp] theorem goTo_res (op : Op) (p : Fin 16) (s : State) : (goTo op p s).res = s.res := rfl
@[simp] theorem goTo_resValid (op : Op) (p : Fin 16) (s : State) : (goTo op p s).resValid = s.resValid := rfl
@[simp] theorem goTo_latch (op : Op) (p : Fin 16) (s : State) : (goTo op p s).latch = s.latch := rfl
@[simp] theorem goTo_busy (op : Op) (p : Fin 16) (s : State) : (goTo op p s).busy = s.busy := rfl
@[simp] theorem goTo_seq (op : Op) (p : Fin 16) (s : State) : (goTo op p s).seq = .phase op p := rfl
@[simp] theorem goTo_scratch (op : Op) (p : Fin 16) (s : State) : (goTo op p s).scratch = s.scratch := rfl
@[simp] theorem goTo_initDone (op : Op) (p : Fin 16) (s : State) : (goTo op p s).initDone = s.initDone := rfl
@[simp] theorem goTo_pendingSend (op : Op) (p : Fin 16) (s : State) : (goTo op p s).pendingSend = s.pendingSend := rfl
@[simp] theorem goTo_tc (op : Op) (p : Fin 16) (s : State) : (goTo op p s).tc = s.tc := rfl
@[simp] theorem goTo_bt (op : Op) (p : Fin 16) (s : State) : (goTo op p s).bt = s.bt := rfl
@[simp] theorem goTo_line (op : Op) (p : Fin 16) (s : State) : (goTo op p s).line = s.line := rfl
@[simp] theorem goTo_mem (op : Op) (p : Fin 16) (s : State) : (goTo op p s).mem = s.mem := rfl
@[simp] theorem goTo_now (op : Op) (p : Fin 16) (s : State) : (goTo op p s).now = s.now := rfl
@[simp] theorem goTo_fresh (op : Op) (p : Fin 16) (s : State) : (goTo op p s).fresh = s.fresh := rfl
@[simp] theorem goTo_schedule (op : Op) (p : Fin 16) (s : State) : (goTo op p s).schedule = s.schedule := rfl
@[simp] theorem goTo_trace (op : Op) (p : Fin 16) (s : State) : (goTo op p s).trace = s.trace := rfl

/-! ### setCnt -/

@[simp] theorem setCnt_cfg (n : Nat) (s : State) : (setCnt n s).cfg = s.cfg := rfl
@[simp] theorem setCnt_timeout (n : Nat) (s : State) : (setCnt n s).timeout = s.timeout := rfl
@[simp] theorem setCnt_res (n : Nat) (s : State) : (setCnt n s).res = s.res := rfl
@[simp] theorem setCnt_resValid (n : Nat) (s : State) : (setCnt n s).resValid = s.resValid := rfl
@[simp] theorem setCnt_latch (n : Nat) (s : State) : (setCnt n s).latch = s.latch := rfl
@[simp] theorem setCnt_busy (n : Nat) (s : State) : (setCnt n s).busy = s.busy := rfl
@[simp] theorem setCnt_seq (n : Nat) (s : State) : (setCnt n s).seq = s.seq := rfl
@[simp] theorem setCnt_scratch (n : Nat) (s : State) : (setCnt n s).scratch = { s.scratch with cnt := n } := rfl
@[simp] theorem setCnt_initDone (n : Nat) (s : State) : (setCnt n s).initDone = s.initDone := rfl
@[simp] theorem setCnt_pendingSend (n : Nat) (s : State) : (setCnt n s).pendingSend = s.pendingSend := rfl
@[simp] theorem setCnt_tc (n : Nat) (s : State) : (setCnt n s).tc = s.tc := rfl
@[simp] theorem setCnt_bt (n : Nat) (s : State) : (setCnt n s).bt = s.bt := rfl
@[simp] theorem setCnt_line (n : Nat) (s : State) : (setCnt n s).line = s.line := rfl
@[simp] theorem setCnt_mem (n : Nat) (s : State) : (setCnt n s).mem = s.mem := rfl
@[simp] theorem setCnt_now (n : Nat) (s : State) : (setCnt n s).now = s.now := rfl
@[simp] theorem setCnt_fresh (n : Nat) (s : State) : (setCnt n s).fresh = s.fresh := rfl
@[simp] theorem setCnt_schedule (n : Nat) (s : State) : (setCnt n s).schedule = s.schedule := rfl
@[simp] theorem setCnt_trace (n : Nat) (s : State) : (setCnt n s).trace = s.trace := rfl

/-! ### setRep -/

@[simp] theorem setRep_cfg (n : Nat) (s : State) : (setRep n s).cfg = s.cfg := rfl
@[simp] theorem setRep_timeout (n : Nat) (s : State) : (setRep n s).timeout = s.timeout := rfl
@[simp] theorem setRep_res (n : Nat) (s : State) : (setRep n s).res = s.res := rfl
@[simp] theorem setRep_resValid (n : Nat) (s : State) : (setRep n s).resValid = s.resValid := rfl
@[simp] theorem setRep_latch (n : Nat) (s : State) : (setRep n s).latch = s.latch := rfl
@[simp] theorem setRep_busy (n : Nat) (s : State) : (setRep n s).busy = s.busy := rfl
@[simp] theorem setRep_seq (n : Nat) (s : State) : (setRep n s).seq = s.seq := rfl
@[simp] theorem setRep_scratch (n : Nat) (s : State) : (setRep n s).scratch = { s.scratch with rep := n } := rfl
@[simp] theorem setRep_initDone (n : Nat) (s : State) : (setRep n s).initDone = s.initDone := rfl
@[simp] theorem setRep_pendingSend (n : Nat) (s : State) : (setRep n s).pendingSend = s.pendingSend := rfl
@[simp] theorem setRep_tc (n : Nat) (s : State) : (setRep n s).tc = s.tc := rfl
@[simp] theorem setRep_bt (n : Nat) (s : State) : (setRep n s).bt = s.bt := rfl
@[simp] theorem setRep_line (n : Nat) (s : State) : (setRep n s).line = s.line := rfl
@[simp] theorem setRep_mem (n : Nat) (s : State) : (setRep n s).mem = s.mem := rfl
@[simp] theorem setRep_now (n : Nat) (s : State) : (setRep n s).now = s.now := rfl
@[simp] theorem setRep_fresh (n : Nat) (s : State) : (setRep n s).fresh = s.fresh := rfl
@[simp] theorem setRep_schedule (n : Nat) (s : State) : (setRep n s).schedule = s.schedule := rfl
@[simp] theorem setRep_trace (n : Nat) (s : State) : (setRep n s).trace = s.trace := rfl

/-! ### setDly -/

@[simp] theorem setDly_cfg (n : BitVec 40) (s : State) : (setDly n s).cfg = s.cfg := rfl
@[simp] theorem setDly_timeout (n : BitVec 40) (s : State) : (setDly n s).timeout = s.timeout := rfl
@[simp] theorem setDly_res (n : BitVec 40) (s : State) : (setDly n s).res = s.res := rfl
@[simp] theorem setDly_resValid (n : BitVec 40) (s : State) : (setDly n s).resValid = s.resValid := rfl
@[simp] theorem setDly_latch (n : BitVec 40) (s : State) : (setDly n s).latch = s.latch := rfl
@[simp] theorem setDly_busy (n : BitVec 40) (s : State) : (setDly n s).busy = s.busy := rfl
@[simp] theorem setDly_seq (n : BitVec 40) (s : State) : (setDly n s).seq = s.seq := rfl
@[simp] theorem setDly_scratch (n : BitVec 40) (s : State) : (setDly n s).scratch = { s.scratch with dly := n } := rfl
@[simp] theorem setDly_initDone (n : BitVec 40) (s : State) : (setDly n s).initDone = s.initDone := rfl
@[simp] theorem setDly_pendingSend (n : BitVec 40) (s : State) : (setDly n s).pendingSend = s.pendingSend := rfl
@[simp] theorem setDly_tc (n : BitVec 40) (s : State) : (setDly n s).tc = s.tc := rfl
@[simp] theorem setDly_bt (n : BitVec 40) (s : State) : (setDly n s).bt = s.bt := rfl
@[simp] theorem setDly_line (n : BitVec 40) (s : State) : (setDly n s).line = s.line := rfl
@[simp] theorem setDly_mem (n : BitVec 40) (s : State) : (setDly n s).mem = s.mem := rfl
@[simp] theorem setDly_now (n : BitVec 40) (s : State) : (setDly n s).now = s.now := rfl
@[simp] theorem setDly_fresh (n : BitVec 40) (s : State) : (setDly n s).fresh = s.fresh := rfl
@[simp] theorem setDly_schedule (n : BitVec 40) (s : State) : (setDly n s).schedule = s.schedule := rfl
@[simp] theorem setDly_trace (n : BitVec 40) (s : State) : (setDly n s).trace = s.trace := rfl

/-! ### setS -/

@[simp] theorem setS_cfg (n : BitVec 32) (s : State) : (setS n s).cfg = s.cfg := rfl
@[simp] theorem setS_timeout (n : BitVec 32) (s : State) : (setS n s).timeout = s.timeout := rfl
@[simp] theorem setS_res (n : BitVec 32) (s : State) : (setS n s).res = s.res := rfl
@[simp] theorem setS_resValid (n : BitVec 32) (s : State) : (setS n s).resValid = s.resValid := rfl
@[simp] theorem setS_latch (n : BitVec 32) (s : State) : (setS n s).latch = s.latch := rfl
@[simp] theorem setS_busy (n : BitVec 32) (s : State) : (setS n s).busy = s.busy := rfl
@[simp] theorem setS_seq (n : BitVec 32) (s : State) : (setS n s).seq = s.seq := rfl
@[simp] theorem setS_scratch (n : BitVec 32) (s : State) : (setS n s).scratch = { s.scratch with s := n } := rfl
@[simp] theorem setS_initDone (n : BitVec 32) (s : State) : (setS n s).initDone = s.initDone := rfl
@[simp] theorem setS_pendingSend (n : BitVec 32) (s : State) : (setS n s).pendingSend = s.pendingSend := rfl
@[simp] theorem setS_tc (n : BitVec 32) (s : State) : (setS n s).tc = s.tc := rfl
@[simp] theorem setS_bt (n : BitVec 32) (s : State) : (setS n s).bt = s.bt := rfl
@[simp] theorem setS_line (n : BitVec 32) (s : State) : (setS n s).line = s.line := rfl
@[simp] theorem setS_mem (n : BitVec 32) (s : State) : (setS n s).mem = s.mem := rfl
@[simp] theorem setS_now (n : BitVec 32) (s : State) : (setS n s).now = s.now := rfl
@[simp] theorem setS_fresh (n : BitVec 32) (s : State) : (setS n s).fresh = s.fresh := rfl
@[simp] theorem setS_schedule (n : BitVec 32) (s : State) : (setS n s).schedule = s.schedule := rfl
@[simp] theorem setS_trace (n : BitVec 32) (s : State) : (setS n s).trace = s.trace := rfl

/-! ### setV -/

@[simp] theorem setV_cfg (n : BitVec 32) (s : State) : (setV n s).cfg = s.cfg := rfl
@[simp] theorem setV_timeout (n : BitVec 32) (s : State) : (setV n s).timeout = s.timeout := rfl
@[simp] theorem setV_res (n : BitVec 32) (s : State) : (setV n s).res = s.res := rfl
@[simp] theorem setV_resValid (n : BitVec 32) (s : State) : (setV n s).resValid = s.resValid := rfl
@[simp] theorem setV_latch (n : BitVec 32) (s : State) : (setV n s).latch = s.latch := rfl
@[simp] theorem setV_busy (n : BitVec 32) (s : State) : (setV n s).busy = s.busy := rfl
@[simp] theorem setV_seq (n : BitVec 32) (s : State) : (setV n s).seq = s.seq := rfl
@[simp] theorem setV_scratch (n : BitVec 32) (s : State) : (setV n s).scratch = { s.scratch with v := n } := rfl
@[simp] theorem setV_initDone (n : BitVec 32) (s : State) : (setV n s).initDone = s.initDone := rfl
@[simp] theorem setV_pendingSend (n : BitVec 32) (s : State) : (setV n s).pendingSend = s.pendingSend := rfl
@[simp] theorem setV_tc (n : BitVec 32) (s : State) : (setV n s).tc = s.tc := rfl
@[simp] theorem setV_bt (n : BitVec 32) (s : State) : (setV n s).bt = s.bt := rfl
@[simp] theorem setV_line (n : BitVec 32) (s : State) : (setV n s).line = s.line := rfl
@[simp] theorem setV_mem (n : BitVec 32) (s : State) : (setV n s).mem = s.mem := rfl
@[simp] theorem setV_now (n : BitVec 32) (s : State) : (setV n s).now = s.now := rfl
@[simp] theorem setV_fresh (n : BitVec 32) (s : State) : (setV n s).fresh = s.fresh := rfl
@[simp] theorem setV_schedule (n : BitVec 32) (s : State) : (setV n s).schedule = s.schedule := rfl
@[simp] theorem setV_trace (n : BitVec 32) (s : State) : (setV n s).trace = s.trace := rfl

/-! ### setT0 -/

@[simp] theorem setT0_cfg (s : State) : (setT0 s).cfg = s.cfg := rfl
@[simp] theorem setT0_timeout (s : State) : (setT0 s).timeout = s.timeout := rfl
@[simp] theorem setT0_res (s : State) : (setT0 s).res = s.res := rfl
@[simp] theorem setT0_resValid (s : State) : (setT0 s).resValid = s.resValid := rfl
@[simp] theorem setT0_latch (s : State) : (setT0 s).latch = s.latch := rfl
@[simp] theorem setT0_busy (s : State) : (setT0 s).busy = s.busy := rfl
@[simp] theorem setT0_seq (s : State) : (setT0 s).seq = s.seq := rfl
@[simp] theorem setT0_scratch (s : State) : (setT0 s).scratch = { s.scratch with t0 := s.now } := rfl
@[simp] theorem setT0_initDone (s : State) : (setT0 s).initDone = s.initDone := rfl
@[simp] theorem setT0_pendingSend (s : State) : (setT0 s).pendingSend = s.pendingSend := rfl
@[simp] theorem setT0_tc (s : State) : (setT0 s).tc = s.tc := rfl
@[simp] theorem setT0_bt (s : State) : (setT0 s).bt = s.bt := rfl
@[simp] theorem setT0_line (s : State) : (setT0 s).line = s.line := rfl
@[simp] theorem setT0_mem (s : State) : (setT0 s).mem = s.mem := rfl
@[simp] theorem setT0_now (s : State) : (setT0 s).now = s.now := rfl
@[simp] theorem setT0_fresh (s : State) : (setT0 s).fresh = s.fresh := rfl
@[simp] theorem setT0_schedule (s : State) : (setT0 s).schedule = s.schedule := rfl
@[simp] theorem setT0_trace (s : State) : (setT0 s).trace = s.trace := rfl

/-! ### useFree -/

@[simp] theorem useFree_cfg (s : State) : (useFree s).cfg = s.cfg := rfl
@[simp] theorem useFree_timeout (s : State) : (useFree s).timeout = s.timeout := rfl
@[simp] theorem useFree_res (s : State) : (useFree s).res = s.res := rfl
@[simp] theorem useFree_resValid (s : State) : (useFree s).resValid = s.resValid := rfl
@[simp] theorem useFree_latch (s : State) : (useFree s).latch = s.latch := rfl
@[simp] theorem useFree_busy (s : State) : (useFree s).busy = s.busy := rfl
@[simp] theorem useFree_seq (s : State) : (useFree s).seq = s.seq := rfl
@[simp] theorem useFree_scratch (s : State) : (useFree s).scratch = s.scratch := rfl
@[simp] theorem useFree_initDone (s : State) : (useFree s).initDone = s.initDone := rfl
@[simp] theorem useFree_pendingSend (s : State) : (useFree s).pendingSend = s.pendingSend := rfl
@[simp] theorem useFree_tc (s : State) : (useFree s).tc = s.tc := rfl
@[simp] theorem useFree_bt (s : State) : (useFree s).bt = s.bt := rfl
@[simp] theorem useFree_line (s : State) : (useFree s).line = s.line := rfl
@[simp] theorem useFree_mem (s : State) : (useFree s).mem = s.mem := rfl
@[simp] theorem useFree_now (s : State) : (useFree s).now = s.now := rfl
@[simp] theorem useFree_fresh (s : State) : (useFree s).fresh = s.fresh + 1 := rfl
@[simp] theorem useFree_schedule (s : State) : (useFree s).schedule = s.schedule := rfl
@[simp] theorem useFree_trace (s : State) : (useFree s).trace = s.trace := rfl

/-! ### complete -/

@[simp] theorem complete_cfg (v : BitVec 64) (s : State) : (complete v s).cfg = s.cfg := rfl
@[simp] theorem complete_timeout (v : BitVec 64) (s : State) : (complete v s).timeout = s.timeout := rfl
@[simp] theorem complete_res (v : BitVec 64) (s : State) : (complete v s).res = v := rfl
@[simp] theorem complete_resValid (v : BitVec 64) (s : State) : (complete v s).resValid = true := rfl
@[simp] theorem complete_latch (v : BitVec 64) (s : State) : (complete v s).latch = s.latch := rfl
@[simp] theorem complete_busy (v : BitVec 64) (s : State) : (complete v s).busy = false := rfl
@[simp] theorem complete_seq (v : BitVec 64) (s : State) : (complete v s).seq = .idle := rfl
@[simp] theorem complete_scratch (v : BitVec 64) (s : State) : (complete v s).scratch = Config.freeScratch s.fresh := rfl
@[simp] theorem complete_initDone (v : BitVec 64) (s : State) : (complete v s).initDone = s.initDone := rfl
@[simp] theorem complete_pendingSend (v : BitVec 64) (s : State) : (complete v s).pendingSend = s.pendingSend := rfl
@[simp] theorem complete_tc (v : BitVec 64) (s : State) : (complete v s).tc = s.tc := rfl
@[simp] theorem complete_bt (v : BitVec 64) (s : State) : (complete v s).bt = s.bt := rfl
@[simp] theorem complete_line (v : BitVec 64) (s : State) : (complete v s).line = s.line := rfl
@[simp] theorem complete_mem (v : BitVec 64) (s : State) : (complete v s).mem = s.mem := rfl
@[simp] theorem complete_now (v : BitVec 64) (s : State) : (complete v s).now = s.now := rfl
@[simp] theorem complete_fresh (v : BitVec 64) (s : State) : (complete v s).fresh = s.fresh + 1 := rfl
@[simp] theorem complete_schedule (v : BitVec 64) (s : State) : (complete v s).schedule = s.schedule := rfl
@[simp] theorem complete_trace (v : BitVec 64) (s : State) : (complete v s).trace = .completed v :: s.trace := rfl

/-! ### latchWord -/

@[simp] theorem latchWord_cfg (w : DWord) (s : State) : (latchWord w s).cfg = s.cfg := rfl
@[simp] theorem latchWord_timeout (w : DWord) (s : State) : (latchWord w s).timeout = s.timeout := rfl
@[simp] theorem latchWord_res (w : DWord) (s : State) : (latchWord w s).res = s.res := rfl
@[simp] theorem latchWord_resValid (w : DWord) (s : State) : (latchWord w s).resValid = false := rfl
@[simp] theorem latchWord_latch (w : DWord) (s : State) : (latchWord w s).latch = latchOfWord w := rfl
@[simp] theorem latchWord_busy (w : DWord) (s : State) : (latchWord w s).busy = true := rfl
@[simp] theorem latchWord_seq (w : DWord) (s : State) : (latchWord w s).seq = s.seq := rfl
@[simp] theorem latchWord_scratch (w : DWord) (s : State) : (latchWord w s).scratch = s.scratch := rfl
@[simp] theorem latchWord_initDone (w : DWord) (s : State) : (latchWord w s).initDone = s.initDone := rfl
@[simp] theorem latchWord_pendingSend (w : DWord) (s : State) : (latchWord w s).pendingSend = s.pendingSend := rfl
@[simp] theorem latchWord_tc (w : DWord) (s : State) : (latchWord w s).tc = s.tc := rfl
@[simp] theorem latchWord_bt (w : DWord) (s : State) : (latchWord w s).bt = s.bt := rfl
@[simp] theorem latchWord_line (w : DWord) (s : State) : (latchWord w s).line = s.line := rfl
@[simp] theorem latchWord_mem (w : DWord) (s : State) : (latchWord w s).mem = s.mem := rfl
@[simp] theorem latchWord_now (w : DWord) (s : State) : (latchWord w s).now = s.now := rfl
@[simp] theorem latchWord_fresh (w : DWord) (s : State) : (latchWord w s).fresh = s.fresh := rfl
@[simp] theorem latchWord_schedule (w : DWord) (s : State) : (latchWord w s).schedule = s.schedule := rfl
@[simp] theorem latchWord_trace (w : DWord) (s : State) : (latchWord w s).trace = .issued w :: s.trace := rfl

/-! ### issue -/

@[simp] theorem issue_cfg (i : Instr) (s : State) : (issue i s).cfg = s.cfg := rfl
@[simp] theorem issue_timeout (i : Instr) (s : State) : (issue i s).timeout = s.timeout := rfl
@[simp] theorem issue_res (i : Instr) (s : State) : (issue i s).res = s.res := rfl
@[simp] theorem issue_resValid (i : Instr) (s : State) : (issue i s).resValid = false := rfl
@[simp] theorem issue_latch (i : Instr) (s : State) : (issue i s).latch = latchOfWord (encode i) := rfl
@[simp] theorem issue_busy (i : Instr) (s : State) : (issue i s).busy = true := rfl
@[simp] theorem issue_seq (i : Instr) (s : State) : (issue i s).seq = .phase i.op 0 := rfl
@[simp] theorem issue_scratch (i : Instr) (s : State) : (issue i s).scratch = s.scratch := rfl
@[simp] theorem issue_initDone (i : Instr) (s : State) : (issue i s).initDone = s.initDone := rfl
@[simp] theorem issue_pendingSend (i : Instr) (s : State) : (issue i s).pendingSend = s.pendingSend := rfl
@[simp] theorem issue_tc (i : Instr) (s : State) : (issue i s).tc = s.tc := rfl
@[simp] theorem issue_bt (i : Instr) (s : State) : (issue i s).bt = s.bt := rfl
@[simp] theorem issue_line (i : Instr) (s : State) : (issue i s).line = s.line := rfl
@[simp] theorem issue_mem (i : Instr) (s : State) : (issue i s).mem = s.mem := rfl
@[simp] theorem issue_now (i : Instr) (s : State) : (issue i s).now = s.now := rfl
@[simp] theorem issue_fresh (i : Instr) (s : State) : (issue i s).fresh = s.fresh := rfl
@[simp] theorem issue_schedule (i : Instr) (s : State) : (issue i s).schedule = s.schedule := rfl
@[simp] theorem issue_trace (i : Instr) (s : State) : (issue i s).trace = .issued (encode i) :: s.trace := rfl

/-! ### engineReset -/

@[simp] theorem engineReset_cfg (s : State) : (engineReset s).cfg = s.cfg := rfl
@[simp] theorem engineReset_timeout (s : State) : (engineReset s).timeout = 0 := rfl
@[simp] theorem engineReset_res (s : State) : (engineReset s).res = 0 := rfl
@[simp] theorem engineReset_resValid (s : State) : (engineReset s).resValid = false := rfl
@[simp] theorem engineReset_latch (s : State) : (engineReset s).latch = ⟨0, 0, 0⟩ := rfl
@[simp] theorem engineReset_busy (s : State) : (engineReset s).busy = false := rfl
@[simp] theorem engineReset_seq (s : State) : (engineReset s).seq = .idle := rfl
@[simp] theorem engineReset_scratch (s : State) : (engineReset s).scratch = Config.freeScratch s.fresh := rfl
@[simp] theorem engineReset_initDone (s : State) : (engineReset s).initDone = false := rfl
@[simp] theorem engineReset_pendingSend (s : State) : (engineReset s).pendingSend = false := rfl
@[simp] theorem engineReset_tc (s : State) : (engineReset s).tc = s.tc := rfl
@[simp] theorem engineReset_bt (s : State) : (engineReset s).bt = s.bt := rfl
@[simp] theorem engineReset_line (s : State) : (engineReset s).line = s.line := rfl
@[simp] theorem engineReset_mem (s : State) : (engineReset s).mem = s.mem := rfl
@[simp] theorem engineReset_now (s : State) : (engineReset s).now = s.now := rfl
@[simp] theorem engineReset_fresh (s : State) : (engineReset s).fresh = s.fresh + 1 := rfl
@[simp] theorem engineReset_schedule (s : State) : (engineReset s).schedule = s.schedule := rfl
@[simp] theorem engineReset_trace (s : State) : (engineReset s).trace = .reset :: s.trace := rfl

/-! ### memWrite -/

@[simp] theorem memWrite_cfg (a : BitVec 32) (b : Byte) (s : State) : (memWrite a b s).cfg = s.cfg := rfl
@[simp] theorem memWrite_timeout (a : BitVec 32) (b : Byte) (s : State) : (memWrite a b s).timeout = s.timeout := rfl
@[simp] theorem memWrite_res (a : BitVec 32) (b : Byte) (s : State) : (memWrite a b s).res = s.res := rfl
@[simp] theorem memWrite_resValid (a : BitVec 32) (b : Byte) (s : State) : (memWrite a b s).resValid = s.resValid := rfl
@[simp] theorem memWrite_latch (a : BitVec 32) (b : Byte) (s : State) : (memWrite a b s).latch = s.latch := rfl
@[simp] theorem memWrite_busy (a : BitVec 32) (b : Byte) (s : State) : (memWrite a b s).busy = s.busy := rfl
@[simp] theorem memWrite_seq (a : BitVec 32) (b : Byte) (s : State) : (memWrite a b s).seq = s.seq := rfl
@[simp] theorem memWrite_scratch (a : BitVec 32) (b : Byte) (s : State) : (memWrite a b s).scratch = s.scratch := rfl
@[simp] theorem memWrite_initDone (a : BitVec 32) (b : Byte) (s : State) : (memWrite a b s).initDone = s.initDone := rfl
@[simp] theorem memWrite_pendingSend (a : BitVec 32) (b : Byte) (s : State) : (memWrite a b s).pendingSend = s.pendingSend := rfl
@[simp] theorem memWrite_tc (a : BitVec 32) (b : Byte) (s : State) : (memWrite a b s).tc = s.tc := rfl
@[simp] theorem memWrite_bt (a : BitVec 32) (b : Byte) (s : State) : (memWrite a b s).bt = s.bt := rfl
@[simp] theorem memWrite_line (a : BitVec 32) (b : Byte) (s : State) : (memWrite a b s).line = s.line := rfl
@[simp] theorem memWrite_mem (a : BitVec 32) (b : Byte) (s : State) : (memWrite a b s).mem = Memory.writeAt s.mem a.toNat b := rfl
@[simp] theorem memWrite_now (a : BitVec 32) (b : Byte) (s : State) : (memWrite a b s).now = s.now := rfl
@[simp] theorem memWrite_fresh (a : BitVec 32) (b : Byte) (s : State) : (memWrite a b s).fresh = s.fresh := rfl
@[simp] theorem memWrite_schedule (a : BitVec 32) (b : Byte) (s : State) : (memWrite a b s).schedule = s.schedule := rfl
@[simp] theorem memWrite_trace (a : BitVec 32) (b : Byte) (s : State) : (memWrite a b s).trace = s.trace := rfl

/-! ### readStatus -/

@[simp] theorem readStatus_cfg (s : State) : (readStatus s).cfg = s.cfg := rfl
@[simp] theorem readStatus_timeout (s : State) : (readStatus s).timeout = s.timeout := rfl
@[simp] theorem readStatus_res (s : State) : (readStatus s).res = s.res := rfl
@[simp] theorem readStatus_resValid (s : State) : (readStatus s).resValid = s.resValid := rfl
@[simp] theorem readStatus_latch (s : State) : (readStatus s).latch = s.latch := rfl
@[simp] theorem readStatus_busy (s : State) : (readStatus s).busy = s.busy := rfl
@[simp] theorem readStatus_seq (s : State) : (readStatus s).seq = s.seq := rfl
@[simp] theorem readStatus_scratch (s : State) : (readStatus s).scratch = { s.scratch with s := statusWord s.tc } := rfl
@[simp] theorem readStatus_initDone (s : State) : (readStatus s).initDone = s.initDone := rfl
@[simp] theorem readStatus_pendingSend (s : State) : (readStatus s).pendingSend = s.pendingSend := rfl
@[simp] theorem readStatus_tc (s : State) : (readStatus s).tc = s.tc := rfl
@[simp] theorem readStatus_bt (s : State) : (readStatus s).bt = s.bt := rfl
@[simp] theorem readStatus_line (s : State) : (readStatus s).line = s.line := rfl
@[simp] theorem readStatus_mem (s : State) : (readStatus s).mem = s.mem := rfl
@[simp] theorem readStatus_now (s : State) : (readStatus s).now = s.now := rfl
@[simp] theorem readStatus_fresh (s : State) : (readStatus s).fresh = s.fresh := rfl
@[simp] theorem readStatus_schedule (s : State) : (readStatus s).schedule = s.schedule := rfl
@[simp] theorem readStatus_trace (s : State) : (readStatus s).trace = .read .status (statusWord s.tc) :: s.trace := rfl

/-! ### pollStatus -/

@[simp] theorem pollStatus_cfg (s : State) : (pollStatus s).cfg = s.cfg := rfl
@[simp] theorem pollStatus_timeout (s : State) : (pollStatus s).timeout = s.timeout := rfl
@[simp] theorem pollStatus_res (s : State) : (pollStatus s).res = s.res := rfl
@[simp] theorem pollStatus_resValid (s : State) : (pollStatus s).resValid = s.resValid := rfl
@[simp] theorem pollStatus_latch (s : State) : (pollStatus s).latch = s.latch := rfl
@[simp] theorem pollStatus_busy (s : State) : (pollStatus s).busy = s.busy := rfl
@[simp] theorem pollStatus_seq (s : State) : (pollStatus s).seq = s.seq := rfl
@[simp] theorem pollStatus_scratch (s : State) : (pollStatus s).scratch = { s.scratch with s := statusWord s.tc, cnt := s.scratch.cnt + 1 } := rfl
@[simp] theorem pollStatus_initDone (s : State) : (pollStatus s).initDone = s.initDone := rfl
@[simp] theorem pollStatus_pendingSend (s : State) : (pollStatus s).pendingSend = s.pendingSend := rfl
@[simp] theorem pollStatus_tc (s : State) : (pollStatus s).tc = s.tc := rfl
@[simp] theorem pollStatus_bt (s : State) : (pollStatus s).bt = s.bt := rfl
@[simp] theorem pollStatus_line (s : State) : (pollStatus s).line = s.line := rfl
@[simp] theorem pollStatus_mem (s : State) : (pollStatus s).mem = s.mem := rfl
@[simp] theorem pollStatus_now (s : State) : (pollStatus s).now = s.now := rfl
@[simp] theorem pollStatus_fresh (s : State) : (pollStatus s).fresh = s.fresh := rfl
@[simp] theorem pollStatus_schedule (s : State) : (pollStatus s).schedule = s.schedule := rfl
@[simp] theorem pollStatus_trace (s : State) : (pollStatus s).trace = .read .status (statusWord s.tc) :: s.trace := rfl

/-! ### placeCommand -/

@[simp] theorem placeCommand_cfg (w : DWord) (s : State) : (placeCommand w s).cfg = s.cfg := rfl
@[simp] theorem placeCommand_timeout (w : DWord) (s : State) : (placeCommand w s).timeout = s.timeout := rfl
@[simp] theorem placeCommand_res (w : DWord) (s : State) : (placeCommand w s).res = s.res := rfl
@[simp] theorem placeCommand_resValid (w : DWord) (s : State) : (placeCommand w s).resValid = s.resValid := rfl
@[simp] theorem placeCommand_latch (w : DWord) (s : State) : (placeCommand w s).latch = s.latch := rfl
@[simp] theorem placeCommand_busy (w : DWord) (s : State) : (placeCommand w s).busy = false := rfl
@[simp] theorem placeCommand_seq (w : DWord) (s : State) : (placeCommand w s).seq = .idle := rfl
@[simp] theorem placeCommand_scratch (w : DWord) (s : State) : (placeCommand w s).scratch = s.scratch := rfl
@[simp] theorem placeCommand_initDone (w : DWord) (s : State) : (placeCommand w s).initDone = s.initDone := rfl
@[simp] theorem placeCommand_pendingSend (w : DWord) (s : State) : (placeCommand w s).pendingSend = s.pendingSend := rfl
@[simp] theorem placeCommand_tc (w : DWord) (s : State) : (placeCommand w s).tc = s.tc := rfl
@[simp] theorem placeCommand_bt (w : DWord) (s : State) : (placeCommand w s).bt = s.bt := rfl
@[simp] theorem placeCommand_line (w : DWord) (s : State) : (placeCommand w s).line = s.line := rfl
@[simp] theorem placeCommand_mem (w : DWord) (s : State) : (placeCommand w s).mem = s.mem := rfl
@[simp] theorem placeCommand_now (w : DWord) (s : State) : (placeCommand w s).now = s.now := rfl
@[simp] theorem placeCommand_fresh (w : DWord) (s : State) : (placeCommand w s).fresh = s.fresh := rfl
@[simp] theorem placeCommand_schedule (w : DWord) (s : State) : (placeCommand w s).schedule = .issue w :: s.schedule := rfl
@[simp] theorem placeCommand_trace (w : DWord) (s : State) : (placeCommand w s).trace = s.trace := rfl

/-! ### regRead: only TC (by the read of TC.RX_DATA) and the record change -/

/-- A register read changes TC and the record at most. -/
theorem regRead_frame (r : ReadReg) (s : State) :
    regRead r s =
      { s with tc := (regRead r s).tc, trace := .read r (regValue r s) :: s.trace } := by
  cases r with
  | rxData =>
    unfold regRead
    by_cases h : s.cfg.respReadClearsReady = true
    · simp only [h, if_true]; rfl
    · simp only [h]; rfl
  | status => rfl
  | done => rfl

@[simp] theorem regRead_cfg (r : ReadReg) (s : State) : (regRead r s).cfg = s.cfg :=
  (congrArg State.cfg (regRead_frame r s) :)
@[simp] theorem regRead_timeout (r : ReadReg) (s : State) : (regRead r s).timeout = s.timeout :=
  (congrArg State.timeout (regRead_frame r s) :)
@[simp] theorem regRead_res (r : ReadReg) (s : State) : (regRead r s).res = s.res :=
  (congrArg State.res (regRead_frame r s) :)
@[simp] theorem regRead_resValid (r : ReadReg) (s : State) : (regRead r s).resValid = s.resValid :=
  (congrArg State.resValid (regRead_frame r s) :)
@[simp] theorem regRead_latch (r : ReadReg) (s : State) : (regRead r s).latch = s.latch :=
  (congrArg State.latch (regRead_frame r s) :)
@[simp] theorem regRead_busy (r : ReadReg) (s : State) : (regRead r s).busy = s.busy :=
  (congrArg State.busy (regRead_frame r s) :)
@[simp] theorem regRead_seq (r : ReadReg) (s : State) : (regRead r s).seq = s.seq :=
  (congrArg State.seq (regRead_frame r s) :)
@[simp] theorem regRead_scratch (r : ReadReg) (s : State) : (regRead r s).scratch = s.scratch :=
  (congrArg State.scratch (regRead_frame r s) :)
@[simp] theorem regRead_initDone (r : ReadReg) (s : State) : (regRead r s).initDone = s.initDone :=
  (congrArg State.initDone (regRead_frame r s) :)
@[simp] theorem regRead_pendingSend (r : ReadReg) (s : State) : (regRead r s).pendingSend = s.pendingSend :=
  (congrArg State.pendingSend (regRead_frame r s) :)
@[simp] theorem regRead_bt (r : ReadReg) (s : State) : (regRead r s).bt = s.bt :=
  (congrArg State.bt (regRead_frame r s) :)
@[simp] theorem regRead_line (r : ReadReg) (s : State) : (regRead r s).line = s.line :=
  (congrArg State.line (regRead_frame r s) :)
@[simp] theorem regRead_mem (r : ReadReg) (s : State) : (regRead r s).mem = s.mem :=
  (congrArg State.mem (regRead_frame r s) :)
@[simp] theorem regRead_now (r : ReadReg) (s : State) : (regRead r s).now = s.now :=
  (congrArg State.now (regRead_frame r s) :)
@[simp] theorem regRead_fresh (r : ReadReg) (s : State) : (regRead r s).fresh = s.fresh :=
  (congrArg State.fresh (regRead_frame r s) :)
@[simp] theorem regRead_schedule (r : ReadReg) (s : State) : (regRead r s).schedule = s.schedule :=
  (congrArg State.schedule (regRead_frame r s) :)
@[simp] theorem regRead_trace (r : ReadReg) (s : State) : (regRead r s).trace = .read r (regValue r s) :: s.trace :=
  (congrArg State.trace (regRead_frame r s) :)
@[simp] theorem regRead_status_tc (s : State) : (regRead .status s).tc = s.tc := rfl
@[simp] theorem regRead_done_tc (s : State) : (regRead .done s).tc = s.tc := rfl
@[simp] theorem regRead_rxData_tc (s : State) :
    (regRead .rxData s).tc =
      { s.tc with dataReady := s.tc.dataReady && !s.cfg.respReadClearsReady } := by
  unfold regRead
  cases s.cfg.respReadClearsReady with
  | true => simp only [if_true, Bool.not_true, Bool.and_false]; rfl
  | false => simp only [Bool.not_false, Bool.and_true]; rfl

/-! ### regWrite: only the register's region, the transmit path and the record change -/

/-- A register write changes TC, BT, the transmit path and the record at most. -/
theorem regWrite_frame (r : WriteReg) (v : BitVec 32) (s : State) :
    regWrite r v s =
      { s with
        tc := (regWrite r v s).tc
        bt := (regWrite r v s).bt
        line := (regWrite r v s).line
        trace := .wrote r v :: s.trace } := by
  cases r with
  | rxData =>
    unfold regWrite
    by_cases h : v = 0
    · simp only [h, if_true]; rfl
    · simp only [h, if_false]; rfl
  | _ => rfl

@[simp] theorem regWrite_cfg (r : WriteReg) (v : BitVec 32) (s : State) :
    (regWrite r v s).cfg = s.cfg :=
  (congrArg State.cfg (regWrite_frame r v s) :)
@[simp] theorem regWrite_timeout (r : WriteReg) (v : BitVec 32) (s : State) :
    (regWrite r v s).timeout = s.timeout :=
  (congrArg State.timeout (regWrite_frame r v s) :)
@[simp] theorem regWrite_res (r : WriteReg) (v : BitVec 32) (s : State) :
    (regWrite r v s).res = s.res :=
  (congrArg State.res (regWrite_frame r v s) :)
@[simp] theorem regWrite_resValid (r : WriteReg) (v : BitVec 32) (s : State) :
    (regWrite r v s).resValid = s.resValid :=
  (congrArg State.resValid (regWrite_frame r v s) :)
@[simp] theorem regWrite_latch (r : WriteReg) (v : BitVec 32) (s : State) :
    (regWrite r v s).latch = s.latch :=
  (congrArg State.latch (regWrite_frame r v s) :)
@[simp] theorem regWrite_busy (r : WriteReg) (v : BitVec 32) (s : State) :
    (regWrite r v s).busy = s.busy :=
  (congrArg State.busy (regWrite_frame r v s) :)
@[simp] theorem regWrite_seq (r : WriteReg) (v : BitVec 32) (s : State) :
    (regWrite r v s).seq = s.seq :=
  (congrArg State.seq (regWrite_frame r v s) :)
@[simp] theorem regWrite_scratch (r : WriteReg) (v : BitVec 32) (s : State) :
    (regWrite r v s).scratch = s.scratch :=
  (congrArg State.scratch (regWrite_frame r v s) :)
@[simp] theorem regWrite_initDone (r : WriteReg) (v : BitVec 32) (s : State) :
    (regWrite r v s).initDone = s.initDone :=
  (congrArg State.initDone (regWrite_frame r v s) :)
@[simp] theorem regWrite_pendingSend (r : WriteReg) (v : BitVec 32) (s : State) :
    (regWrite r v s).pendingSend = s.pendingSend :=
  (congrArg State.pendingSend (regWrite_frame r v s) :)
@[simp] theorem regWrite_mem (r : WriteReg) (v : BitVec 32) (s : State) :
    (regWrite r v s).mem = s.mem :=
  (congrArg State.mem (regWrite_frame r v s) :)
@[simp] theorem regWrite_now (r : WriteReg) (v : BitVec 32) (s : State) :
    (regWrite r v s).now = s.now :=
  (congrArg State.now (regWrite_frame r v s) :)
@[simp] theorem regWrite_fresh (r : WriteReg) (v : BitVec 32) (s : State) :
    (regWrite r v s).fresh = s.fresh :=
  (congrArg State.fresh (regWrite_frame r v s) :)
@[simp] theorem regWrite_schedule (r : WriteReg) (v : BitVec 32) (s : State) :
    (regWrite r v s).schedule = s.schedule :=
  (congrArg State.schedule (regWrite_frame r v s) :)
@[simp] theorem regWrite_trace (r : WriteReg) (v : BitVec 32) (s : State) :
    (regWrite r v s).trace = .wrote r v :: s.trace :=
  (congrArg State.trace (regWrite_frame r v s) :)
@[simp] theorem regWrite_activateRx_tc (v : BitVec 32) (s : State) : (regWrite .activateRx v s).tc = { s.tc with activateRx := v } := rfl
@[simp] theorem regWrite_activateRx_bt (v : BitVec 32) (s : State) : (regWrite .activateRx v s).bt = s.bt := rfl
@[simp] theorem regWrite_activateRx_line (v : BitVec 32) (s : State) : (regWrite .activateRx v s).line = s.line := rfl
@[simp] theorem regWrite_preambleLen_tc (v : BitVec 32) (s : State) : (regWrite .preambleLen v s).tc = { s.tc with preambleLen := v } := rfl
@[simp] theorem regWrite_preambleLen_bt (v : BitVec 32) (s : State) : (regWrite .preambleLen v s).bt = s.bt := rfl
@[simp] theorem regWrite_preambleLen_line (v : BitVec 32) (s : State) : (regWrite .preambleLen v s).line = s.line := rfl
@[simp] theorem regWrite_padLen_tc (v : BitVec 32) (s : State) : (regWrite .padLen v s).tc = { s.tc with padLen := v } := rfl
@[simp] theorem regWrite_padLen_bt (v : BitVec 32) (s : State) : (regWrite .padLen v s).bt = s.bt := rfl
@[simp] theorem regWrite_padLen_line (v : BitVec 32) (s : State) : (regWrite .padLen v s).line = s.line := rfl
@[simp] theorem regWrite_dataBitWidth_tc (v : BitVec 32) (s : State) : (regWrite .dataBitWidth v s).tc = { s.tc with dataBitWidth := v } := rfl
@[simp] theorem regWrite_dataBitWidth_bt (v : BitVec 32) (s : State) : (regWrite .dataBitWidth v s).bt = s.bt := rfl
@[simp] theorem regWrite_dataBitWidth_line (v : BitVec 32) (s : State) : (regWrite .dataBitWidth v s).line = s.line := rfl
@[simp] theorem regWrite_acceptance_tc (v : BitVec 32) (s : State) : (regWrite .acceptance v s).tc = { s.tc with acceptance := v } := rfl
@[simp] theorem regWrite_acceptance_bt (v : BitVec 32) (s : State) : (regWrite .acceptance v s).bt = s.bt := rfl
@[simp] theorem regWrite_acceptance_line (v : BitVec 32) (s : State) : (regWrite .acceptance v s).line = s.line := rfl
@[simp] theorem regWrite_enable_tc (v : BitVec 32) (s : State) : (regWrite .enable v s).tc = { s.tc with enable := v } := rfl
@[simp] theorem regWrite_enable_bt (v : BitVec 32) (s : State) : (regWrite .enable v s).bt = s.bt := rfl
@[simp] theorem regWrite_enable_line (v : BitVec 32) (s : State) : (regWrite .enable v s).line = s.line := rfl
@[simp] theorem regWrite_txCmd_tc (v : BitVec 32) (s : State) : (regWrite .txCmd v s).tc = s.tc := rfl
@[simp] theorem regWrite_txCmd_bt (v : BitVec 32) (s : State) : (regWrite .txCmd v s).bt = s.bt := rfl
@[simp] theorem regWrite_txCmd_line (v : BitVec 32) (s : State) : (regWrite .txCmd v s).line = { s.line with txWords := s.line.txWords ++ [v] } := rfl
@[simp] theorem regWrite_src_tc (v : BitVec 32) (s : State) : (regWrite .src v s).tc = s.tc := rfl
@[simp] theorem regWrite_src_bt (v : BitVec 32) (s : State) : (regWrite .src v s).bt = { s.bt with src := v } := rfl
@[simp] theorem regWrite_src_line (v : BitVec 32) (s : State) : (regWrite .src v s).line = s.line := rfl
@[simp] theorem regWrite_dst_tc (v : BitVec 32) (s : State) : (regWrite .dst v s).tc = s.tc := rfl
@[simp] theorem regWrite_dst_bt (v : BitVec 32) (s : State) : (regWrite .dst v s).bt = { s.bt with dst := v } := rfl
@[simp] theorem regWrite_dst_line (v : BitVec 32) (s : State) : (regWrite .dst v s).line = s.line := rfl
@[simp] theorem regWrite_len_tc (v : BitVec 32) (s : State) : (regWrite .len v s).tc = s.tc := rfl
@[simp] theorem regWrite_len_bt (v : BitVec 32) (s : State) : (regWrite .len v s).bt = submit v s.bt := rfl
@[simp] theorem regWrite_len_line (v : BitVec 32) (s : State) : (regWrite .len v s).line = s.line := rfl
@[simp] theorem regWrite_rxData_bt (v : BitVec 32) (s : State) : (regWrite .rxData v s).bt = s.bt := by
  simp only [regWrite]
  split <;> rfl
@[simp] theorem regWrite_rxData_line (v : BitVec 32) (s : State) : (regWrite .rxData v s).line = s.line := by
  simp only [regWrite]
  split <;> rfl
@[simp] theorem regWrite_rxData_zero_tc (s : State) :
    (regWrite .rxData 0 s).tc = { s.tc with dataReady := false } := rfl

/-! ### popMove: only the schedule and the free-value counter change -/

/-- Taking the next move changes the schedule and the free-value counter at most. -/
theorem popMove_frame (s : State) :
    popMove s = { s with schedule := (popMove s).schedule, fresh := (popMove s).fresh } := by
  unfold popMove
  split <;> rfl

@[simp] theorem popMove_cfg (s : State) : (popMove s).cfg = s.cfg :=
  (congrArg State.cfg (popMove_frame s) :)
@[simp] theorem popMove_timeout (s : State) : (popMove s).timeout = s.timeout :=
  (congrArg State.timeout (popMove_frame s) :)
@[simp] theorem popMove_res (s : State) : (popMove s).res = s.res :=
  (congrArg State.res (popMove_frame s) :)
@[simp] theorem popMove_resValid (s : State) : (popMove s).resValid = s.resValid :=
  (congrArg State.resValid (popMove_frame s) :)
@[simp] theorem popMove_latch (s : State) : (popMove s).latch = s.latch :=
  (congrArg State.latch (popMove_frame s) :)
@[simp] theorem popMove_busy (s : State) : (popMove s).busy = s.busy :=
  (congrArg State.busy (popMove_frame s) :)
@[simp] theorem popMove_seq (s : State) : (popMove s).seq = s.seq :=
  (congrArg State.seq (popMove_frame s) :)
@[simp] theorem popMove_scratch (s : State) : (popMove s).scratch = s.scratch :=
  (congrArg State.scratch (popMove_frame s) :)
@[simp] theorem popMove_initDone (s : State) : (popMove s).initDone = s.initDone :=
  (congrArg State.initDone (popMove_frame s) :)
@[simp] theorem popMove_pendingSend (s : State) : (popMove s).pendingSend = s.pendingSend :=
  (congrArg State.pendingSend (popMove_frame s) :)
@[simp] theorem popMove_tc (s : State) : (popMove s).tc = s.tc :=
  (congrArg State.tc (popMove_frame s) :)
@[simp] theorem popMove_bt (s : State) : (popMove s).bt = s.bt :=
  (congrArg State.bt (popMove_frame s) :)
@[simp] theorem popMove_line (s : State) : (popMove s).line = s.line :=
  (congrArg State.line (popMove_frame s) :)
@[simp] theorem popMove_mem (s : State) : (popMove s).mem = s.mem :=
  (congrArg State.mem (popMove_frame s) :)
@[simp] theorem popMove_now (s : State) : (popMove s).now = s.now :=
  (congrArg State.now (popMove_frame s) :)
@[simp] theorem popMove_trace (s : State) : (popMove s).trace = s.trace :=
  (congrArg State.trace (popMove_frame s) :)

/-! ### memWriteBytes: only memory changes -/

/-- A store of bytes changes memory at most. -/
theorem memWriteBytes_frame (a : BitVec 32) (bs : List Byte) (s : State) :
    memWriteBytes a bs s = { s with mem := (memWriteBytes a bs s).mem } := by
  induction bs generalizing a s with
  | nil => rfl
  | cons b bs ih => exact ih (a + 1) (memWrite a b s)

@[simp] theorem memWriteBytes_cfg (a : BitVec 32) (bs : List Byte) (s : State) :
    (memWriteBytes a bs s).cfg = s.cfg :=
  (congrArg State.cfg (memWriteBytes_frame a bs s) :)
@[simp] theorem memWriteBytes_timeout (a : BitVec 32) (bs : List Byte) (s : State) :
    (memWriteBytes a bs s).timeout = s.timeout :=
  (congrArg State.timeout (memWriteBytes_frame a bs s) :)
@[simp] theorem memWriteBytes_res (a : BitVec 32) (bs : List Byte) (s : State) :
    (memWriteBytes a bs s).res = s.res :=
  (congrArg State.res (memWriteBytes_frame a bs s) :)
@[simp] theorem memWriteBytes_resValid (a : BitVec 32) (bs : List Byte) (s : State) :
    (memWriteBytes a bs s).resValid = s.resValid :=
  (congrArg State.resValid (memWriteBytes_frame a bs s) :)
@[simp] theorem memWriteBytes_latch (a : BitVec 32) (bs : List Byte) (s : State) :
    (memWriteBytes a bs s).latch = s.latch :=
  (congrArg State.latch (memWriteBytes_frame a bs s) :)
@[simp] theorem memWriteBytes_busy (a : BitVec 32) (bs : List Byte) (s : State) :
    (memWriteBytes a bs s).busy = s.busy :=
  (congrArg State.busy (memWriteBytes_frame a bs s) :)
@[simp] theorem memWriteBytes_seq (a : BitVec 32) (bs : List Byte) (s : State) :
    (memWriteBytes a bs s).seq = s.seq :=
  (congrArg State.seq (memWriteBytes_frame a bs s) :)
@[simp] theorem memWriteBytes_scratch (a : BitVec 32) (bs : List Byte) (s : State) :
    (memWriteBytes a bs s).scratch = s.scratch :=
  (congrArg State.scratch (memWriteBytes_frame a bs s) :)
@[simp] theorem memWriteBytes_initDone (a : BitVec 32) (bs : List Byte) (s : State) :
    (memWriteBytes a bs s).initDone = s.initDone :=
  (congrArg State.initDone (memWriteBytes_frame a bs s) :)
@[simp] theorem memWriteBytes_pendingSend (a : BitVec 32) (bs : List Byte) (s : State) :
    (memWriteBytes a bs s).pendingSend = s.pendingSend :=
  (congrArg State.pendingSend (memWriteBytes_frame a bs s) :)
@[simp] theorem memWriteBytes_tc (a : BitVec 32) (bs : List Byte) (s : State) :
    (memWriteBytes a bs s).tc = s.tc :=
  (congrArg State.tc (memWriteBytes_frame a bs s) :)
@[simp] theorem memWriteBytes_bt (a : BitVec 32) (bs : List Byte) (s : State) :
    (memWriteBytes a bs s).bt = s.bt :=
  (congrArg State.bt (memWriteBytes_frame a bs s) :)
@[simp] theorem memWriteBytes_line (a : BitVec 32) (bs : List Byte) (s : State) :
    (memWriteBytes a bs s).line = s.line :=
  (congrArg State.line (memWriteBytes_frame a bs s) :)
@[simp] theorem memWriteBytes_now (a : BitVec 32) (bs : List Byte) (s : State) :
    (memWriteBytes a bs s).now = s.now :=
  (congrArg State.now (memWriteBytes_frame a bs s) :)
@[simp] theorem memWriteBytes_fresh (a : BitVec 32) (bs : List Byte) (s : State) :
    (memWriteBytes a bs s).fresh = s.fresh :=
  (congrArg State.fresh (memWriteBytes_frame a bs s) :)
@[simp] theorem memWriteBytes_schedule (a : BitVec 32) (bs : List Byte) (s : State) :
    (memWriteBytes a bs s).schedule = s.schedule :=
  (congrArg State.schedule (memWriteBytes_frame a bs s) :)
@[simp] theorem memWriteBytes_trace (a : BitVec 32) (bs : List Byte) (s : State) :
    (memWriteBytes a bs s).trace = s.trace :=
  (congrArg State.trace (memWriteBytes_frame a bs s) :)

end Sys2Proof.Machine
end

