-- ==== Sys2Proof/Laws/Flags.lean ====
section
/-! SUPPORT. What each slice of a facade word is (10_state.md R39, R45). -/

namespace Sys2Proof.Machine

/-- The status word bit by bit: the four flags, then the bits that have no meaning. -/
theorem statusWord_getLsbD (tc : Tc) (i : Nat) : (statusWord tc).getLsbD i =
    if i < 4 then
      if i < 3 then
        if i < 2 then
          if i < 1 then (BitVec.ofBool tc.sendDone).getLsbD i
          else (BitVec.ofBool tc.dataReady).getLsbD (i - 1)
        else (BitVec.ofBool tc.sending).getLsbD (i - 2)
      else (BitVec.ofBool tc.receiving).getLsbD (i - 3)
    else tc.statusRest.getLsbD (i - 4) := by
  refine (BitVec.getLsbD_append (x := tc.statusRest)).trans (if_congr Iff.rfl ?_ rfl)
  refine (BitVec.getLsbD_append (x := BitVec.ofBool tc.receiving)).trans (if_congr Iff.rfl ?_ rfl)
  refine (BitVec.getLsbD_append (x := BitVec.ofBool tc.sending)).trans (if_congr Iff.rfl ?_ rfl)
  exact BitVec.getLsbD_append (x := BitVec.ofBool tc.dataReady)

@[simp] theorem sendDoneOf_statusWord (tc : Tc) : sendDoneOf (statusWord tc) = tc.sendDone := by
  simp [sendDoneOf, statusWord_getLsbD, -BitVec.getLsbD_eq_getElem]

@[simp] theorem dataReadyOf_statusWord (tc : Tc) : dataReadyOf (statusWord tc) = tc.dataReady := by
  simp [dataReadyOf, statusWord_getLsbD, -BitVec.getLsbD_eq_getElem]

@[simp] theorem sendingOf_statusWord (tc : Tc) : sendingOf (statusWord tc) = tc.sending := by
  simp [sendingOf, statusWord_getLsbD, -BitVec.getLsbD_eq_getElem]

@[simp] theorem receivingOf_statusWord (tc : Tc) : receivingOf (statusWord tc) = tc.receiving := by
  simp [receivingOf, statusWord_getLsbD, -BitVec.getLsbD_eq_getElem]

@[simp] theorem doneOf_doneWord (bt : Bt) : doneOf (doneWord bt) = bt.done := by
  refine (BitVec.getLsbD_append (x := bt.doneRest)).trans ?_
  simp

end Sys2Proof.Machine
end

