-- ==== Sys2Proof/Laws/Memory.lean ====
section
/-! SUPPORT. Memory: a read after a write, and the canonical form every memory operation keeps. -/

namespace Sys2Proof.Machine

@[simp] theorem readAt_nil (a : Nat) : Memory.readAt [] a = Memory.unlisted := rfl

/-- Below the first listed address nothing is listed. -/
theorem readAt_of_lt {m : Memory} {a : Nat} (h : ∀ c ∈ m, a < c.1) :
    Memory.readAt m a = Memory.unlisted := by
  induction m with
  | nil => rfl
  | cons c m ih =>
    obtain ⟨a', b'⟩ := c
    have h1 : a < a' := h (a', b') (by simp)
    simp only [Memory.readAt, if_neg (Nat.ne_of_gt h1)]
    exact ih fun c hc => h c (by simp [hc])

/-- Every address listed after a write was listed before, or is the address written. -/
theorem mem_writeAt {m : Memory} {a : Nat} {b : Byte} {c : Host.Cell}
    (h : c ∈ Memory.writeAt m a b) : c ∈ m ∨ (c = (a, b) ∧ b ≠ Memory.unlisted) := by
  induction m with
  | nil =>
    simp only [Memory.writeAt] at h
    split at h
    · exact absurd h List.not_mem_nil
    · next hb => exact .inr ⟨List.mem_singleton.1 h, hb⟩
  | cons d m ih =>
    obtain ⟨a', b'⟩ := d
    simp only [Memory.writeAt] at h
    split at h
    · split at h
      · exact .inl h
      · next hb => exact (List.mem_cons.1 h).elim (fun h => .inr ⟨h, hb⟩) .inl
    · split at h
      · split at h
        · exact .inl (List.mem_cons_of_mem _ h)
        · next hb =>
          exact (List.mem_cons.1 h).elim (fun h => .inr ⟨h, hb⟩) fun h => .inl (List.mem_cons_of_mem _ h)
      · rcases List.mem_cons.1 h with h | h
        · exact .inl (h ▸ List.mem_cons_self)
        · exact (ih h).imp_left (List.mem_cons_of_mem _)

/-- A read after a write to the same address gives the value written (canonical memory). -/
theorem readAt_writeAt_same {m : Memory} (hm : m.Pairwise (fun x y => x.1 < y.1)) (a : Nat) (b : Byte) :
    Memory.readAt (Memory.writeAt m a b) a = b := by
  induction m with
  | nil =>
    simp only [Memory.writeAt]
    split <;> simp_all [Memory.readAt]
  | cons d m ih =>
    obtain ⟨a', b'⟩ := d
    rw [List.pairwise_cons] at hm
    simp only [Memory.writeAt]
    split
    · next hlt =>
      split
      · next hb =>
        rw [hb]
        refine readAt_of_lt fun c hc => ?_
        rcases List.mem_cons.1 hc with rfl | hc
        · exact hlt
        · exact Nat.lt_trans hlt (hm.1 c hc)
      · simp [Memory.readAt]
    · split
      · next heq =>
        subst heq
        split
        · next hb => rw [hb]; exact readAt_of_lt hm.1
        · simp [Memory.readAt]
      · next hne =>
        simp only [Memory.readAt, if_neg (Ne.symm hne)]
        exact ih hm.2

/-- A write leaves every other address alone (canonical memory). -/
theorem readAt_writeAt_other {m : Memory} (hm : m.Pairwise (fun x y => x.1 < y.1)) {a a' : Nat}
    (b : Byte) (h : a' ≠ a) : Memory.readAt (Memory.writeAt m a b) a' = Memory.readAt m a' := by
  induction m with
  | nil =>
    simp only [Memory.writeAt]
    split <;> simp_all [Memory.readAt, Ne.symm h]
  | cons d m ih =>
    obtain ⟨c, b'⟩ := d
    rw [List.pairwise_cons] at hm
    simp only [Memory.writeAt]
    split
    · split
      · rfl
      · simp [Memory.readAt, Ne.symm h]
    · split
      · next heq =>
        subst heq
        split
        · next hb =>
          simp [Memory.readAt, Ne.symm h]
        · simp [Memory.readAt, Ne.symm h]
      · simp only [Memory.readAt]
        split
        · rfl
        · exact ih hm.2

/-- A write keeps the canonical form. -/
theorem wf_writeAt {m : Memory} (hm : Memory.wf m) {a : Nat} (ha : a < 2 ^ 32) (b : Byte) :
    Memory.wf (Memory.writeAt m a b) := by
  refine ⟨?_, fun c hc => ?_⟩
  · have hp := hm.1
    clear hm
    induction m with
    | nil =>
      simp only [Memory.writeAt]
      split <;> simp
    | cons d m ih =>
      obtain ⟨a', b'⟩ := d
      have hp' := hp
      rw [List.pairwise_cons] at hp'
      simp only [Memory.writeAt]
      split
      · next hlt =>
        split
        · exact hp
        · rw [List.pairwise_cons]
          refine ⟨fun c hc => ?_, hp⟩
          rcases List.mem_cons.1 hc with rfl | hc
          · exact hlt
          · exact Nat.lt_trans hlt (hp'.1 c hc)
      · split
        · next heq =>
          subst heq
          split
          · exact hp'.2
          · exact List.pairwise_cons.2 ⟨hp'.1, hp'.2⟩
        · next hnlt hne =>
          refine List.pairwise_cons.2 ⟨fun c hc => ?_, ih hp'.2⟩
          rcases mem_writeAt hc with hc | ⟨rfl, -⟩
          · exact hp'.1 c hc
          · show a' < a
            omega
  · rcases mem_writeAt hc with hc | ⟨rfl, hb⟩
    · exact hm.2 c hc
    · exact ⟨hb, ha⟩

/-- Storing one byte keeps the canonical form. -/
theorem wf_memWrite {s : State} (h : Memory.wf s.mem) (a : BitVec 32) (b : Byte) :
    Memory.wf (memWrite a b s).mem := wf_writeAt h a.isLt b

/-- Storing a run of bytes keeps the canonical form. -/
theorem wf_memWriteBytes {s : State} (h : Memory.wf s.mem) (a : BitVec 32) (bs : List Byte) :
    Memory.wf (memWriteBytes a bs s).mem := by
  induction bs generalizing a s with
  | nil => exact h
  | cons b bs ih => exact ih (wf_memWrite h a b) (a + 1)

theorem memRead_memWrite_same {s : State} (h : Memory.wf s.mem) (a : BitVec 32) (b : Byte) :
    memRead a (memWrite a b s) = b := readAt_writeAt_same h.1 a.toNat b

theorem memRead_memWrite_other {s : State} (h : Memory.wf s.mem) {a a' : BitVec 32} (b : Byte)
    (hne : a' ≠ a) : memRead a' (memWrite a b s) = memRead a' s :=
  readAt_writeAt_other h.1 b fun he => hne (BitVec.eq_of_toNat_eq he)

/-- The memory of the state right after reset is in canonical form. -/
theorem wf_resetWith (c : Config) : Memory.wf (State.resetWith c).mem := by
  simp [State.resetWith, Memory.wf]

end Sys2Proof.Machine
end

