-- ==== Sys2Proof/Laws/Operands.lean ====
section
/-! SUPPORT. The computed operands as exact natural numbers, and the bits of the words the engine assembles. -/

namespace Sys2Proof.Machine

/-- What an admitted configuration satisfies, clause by clause (00_scope.md R8). -/
theorem admitted_iff (c : Config) : admitted c = true ↔
    1 ≤ c.mode ∧ c.mode ≤ 4 ∧ 1 ≤ c.maxPacketLen.toNat ∧ c.maxPacketLen.toNat ≤ 65534 ∧
    1 ≤ repDivisor c ∧
    (c.maxPacketLen.toNat * c.responseOffset.toNat + c.latency.toNat) / repDivisor c + 2 ≤ 255 ∧
    c.degree ≤ 7 ∧ 1 ≤ c.pollBound ∧ 1000000 ≤ c.clockHz ∧
    (allRegs.map (regAddr c)).Nodup ∧
    allRegs.all (fun r => (regOff c r).toNat % 4 == 0) = true ∧
    allRegs.all (fun r => (regAddr c r).toNat % 4 == 0) = true ∧
    meetsRegisters c c.captureAddr c.maxPacketLen.toNat = false ∧
    2 ≤ c.btQueueDepth ∧ 255 < c.fail.toNat ∧ c.maxPacketLen.toNat < c.fail.toNat := by
  simp only [admitted, constraints, List.all_cons, List.all_nil, id_eq, Bool.and_eq_true,
    decide_eq_true_eq, Bool.not_eq_true', Bool.and_true]

theorem admitted_x1 : admitted Config.x1 = true := by decide

/-- TIMEOUT never wraps (R161, R21). -/
@[simp] theorem timeoutOf_toNat (c : Config) (length : BitVec 16) :
    (timeoutOf c length).toNat = length.toNat * c.responseOffset.toNat + c.latency.toNat := by
  have h1 := length.isLt
  have h2 := c.responseOffset.isLt
  have h3 := c.latency.isLt
  have : length.toNat * c.responseOffset.toNat ≤ 65535 * 65535 :=
    Nat.mul_le_mul (by omega) (by omega)
  simp only [timeoutOf, BitVec.toNat_ofNat]
  omega

/-- The back-off delay never wraps when DEGREE <= 7 (R141). -/
theorem backOffOf_toNat {c : Config} (h : c.degree ≤ 7) (attempts : BitVec 8) :
    (backOffOf c attempts).toNat = attempts.toNat ^ (1 + c.degree) := by
  simp only [backOffOf, BitVec.toNat_ofNat]
  refine Nat.mod_eq_of_lt ?_
  calc attempts.toNat ^ (1 + c.degree) < (2 ^ 8) ^ (1 + c.degree) :=
        Nat.pow_lt_pow_left attempts.isLt (by omega)
    _ = 2 ^ (8 * (1 + c.degree)) := by rw [← Nat.pow_mul]
    _ ≤ 2 ^ 64 := Nat.pow_le_pow_right (by omega) (by omega)

/-- The start-up delay never wraps (R130). -/
@[simp] theorem startupDelayOf_toNat (c : Config) (startupId : BitVec 8) :
    (startupDelayOf c startupId).toNat = startupId.toNat * c.startupUnitUs.toNat := by
  have h1 := startupId.isLt
  have h2 := c.startupUnitUs.isLt
  have : startupId.toNat * c.startupUnitUs.toNat ≤ 255 * 4294967295 :=
    Nat.mul_le_mul (by omega) (by omega)
  simp only [startupDelayOf, BitVec.toNat_ofNat]
  omega

theorem draw_le (m : Nat) (s : State) : draw m s ≤ m :=
  Nat.le_of_lt_succ (Nat.mod_lt _ (Nat.succ_pos m))

/-- BT.LEN holds the count, zero-extended, and its low half is the count (R43). -/
@[simp] theorem lenWord_low (l : BitVec 16) : (lenWord l).extractLsb' 0 16 = l := by
  ext i hi
  simp [lenWord, hi]
  omega

end Sys2Proof.Machine
end

