-- ==== Sys2Proof/Laws/Command.lean ====
section
/-! SUPPORT. What the frame of every meaning can do (`command`, `submitThen`), and each meaning through it. -/

namespace Sys2Proof.Machine

/-- At BUSY = 0 a command is issued. -/
theorem command_idle {i : Instr} {start : State → Result} {access : Nat → State → Result} {s : State}
    (h : s.busy = false) : command i start access s = start (issue i s) := if_pos h

/-- While the command is in flight ENGINE makes the access of its phase. -/
theorem command_atPhase {i : Instr} {start : State → Result} {access : Nat → State → Result} {s : State}
    {op : Op} {p : Fin 16} (hb : s.busy = true) (hl : s.latch = latchOf i) (hs : s.seq = .phase op p)
    (ho : op = i.op) : command i start access s = access p.val s := by
  simp [command, hb, hl, hs, ho]

/-- While another command is in flight the port takes no word (10_state.md R24). -/
theorem command_other {i : Instr} {start : State → Result} {access : Nat → State → Result} {s : State}
    (hb : s.busy = true) (hl : s.latch ≠ latchOf i) :
    command i start access s = .refused .commandInFlight := by
  simp [command, hb, hl]

/-- Everything a meaning that answers a next state can be: an issue, or an access of the command in flight. -/
theorem command_next_cases {i : Instr} {start : State → Result} {access : Nat → State → Result}
    {s t : State} (h : command i start access s = .next t) :
    (s.busy = false ∧ start (issue i s) = .next t) ∨
    (∃ p : Fin 16, s.busy = true ∧ s.latch = latchOf i ∧ s.seq = .phase i.op p ∧
      access p.val s = .next t) := by
  simp only [command] at h
  split at h
  · next hb => exact .inl ⟨hb, h⟩
  · next hb =>
    split at h
    · next hl =>
      split at h
      · cases h
      · next op p hs =>
        split at h
        · next ho => exact .inr ⟨p, by simpa using hb, hl, by rw [hs, ho], h⟩
        · cases h
    · cases h

/-- The write of BT.LEN completes the access when there is room in the queue (60_exceptions.md R240). -/
theorem submitThen_room {v : BitVec 32} {k : State → State} {s : State}
    (h : pendingCount s.bt < s.cfg.btQueueDepth) :
    submitThen v k s = .next (k (regWrite .len v s)) := if_pos h

theorem submitThen_next {v : BitVec 32} {k : State → State} {s t : State}
    (h : submitThen v k s = .next t) :
    pendingCount s.bt < s.cfg.btQueueDepth ∧ t = k (regWrite .len v s) := by
  simp only [submitThen] at h
  split at h
  · next hr => exact ⟨hr, by injection h with h; exact h.symm⟩
  · cases h

/-- What finishes the issue step of each command. -/
def startOf : Instr → State → Result
  | .beginInit v => beginStart v
  | .canStart => fun t => .next t
  | .sendFrame _ l => sendFrameStart l
  | .receiveResponse => fun t => .next t
  | .receiveFrame _ l => receiveFrameStart l
  | .sendResponse _ => fun t => .next t
  | .handleCollision => fun t => .next t
  | .backOff v => backOffStart v
  | .getMaxAttempts => fun t => .next (complete (res16 t.cfg.maxAttempts) t)
  | .getReceiveTime => fun t => .next (complete (t.cfg.receiveTimeUs.zeroExtend 64) t)

/-- The access of each phase of each command. -/
def accessOf : Instr → Nat → State → Result
  | .beginInit _ => beginAccess
  | .canStart => canStartAccess
  | .sendFrame b l => sendFrameAccess b l
  | .receiveResponse => receiveResponseAccess
  | .receiveFrame b l => receiveFrameAccess b l
  | .sendResponse v => sendResponseAccess v
  | .handleCollision => handleCollisionAccess
  | .backOff _ => fun _ _ => .fault .sequencerOutOfStep
  | .getMaxAttempts => fun _ _ => .fault .sequencerOutOfStep
  | .getReceiveTime => fun _ _ => .fault .sequencerOutOfStep

/-- Every meaning is the one frame around its issue step and its accesses. -/
theorem exec_eq_command (i : Instr) (s : State) :
    exec i s = command i (startOf i) (accessOf i) s := by
  cases i <;> rfl

theorem exec_idle {i : Instr} {s : State} (h : s.busy = false) : exec i s = startOf i (issue i s) := by
  rw [exec_eq_command, command_idle h]

theorem exec_atPhase {i : Instr} {s : State} {p : Fin 16} (hb : s.busy = true) (hl : s.latch = latchOf i)
    (hs : s.seq = .phase i.op p) : exec i s = accessOf i p.val s := by
  rw [exec_eq_command, command_atPhase hb hl hs rfl]

theorem exec_other {i : Instr} {s : State} (hb : s.busy = true) (hl : s.latch ≠ latchOf i) :
    exec i s = .refused .commandInFlight := by
  rw [exec_eq_command, command_other hb hl]

/-- Everything `exec` can be when it answers a next state. -/
theorem exec_next_cases {i : Instr} {s t : State} (h : exec i s = .next t) :
    (s.busy = false ∧ startOf i (issue i s) = .next t) ∨
    (∃ p : Fin 16, s.busy = true ∧ s.latch = latchOf i ∧ s.seq = .phase i.op p ∧
      accessOf i p.val s = .next t) := by
  rw [exec_eq_command] at h
  exact command_next_cases h

end Sys2Proof.Machine
end

