-- ==== Sys2Proof/Laws/Decode.lean ====
section
/-! SUPPORT. What the decoder does with the fields of a command (30_encoding.md R102 to R106). -/

namespace Sys2Proof

/-- Distinct operations have distinct numbers (R103). -/
theorem Op.number_inj {a b : Op} (h : a.number = b.number) : a = b := by
  revert a b
  intro a b
  cases a <;> cases b <;> decide

theorem extract_high_zeroExtend (v : BitVec 8) : (v.zeroExtend 16).extractLsb' 8 8 = 0 := by
  revert v; decide

theorem extract_low_zeroExtend (v : BitVec 8) : (v.zeroExtend 16).extractLsb' 0 8 = v := by
  revert v; decide

theorem zeroExtend_extract_low {a1 : BitVec 16} (h : a1.extractLsb' 8 8 = 0) :
    (a1.extractLsb' 0 8).zeroExtend 16 = a1 := by
  have h' := congrArg BitVec.toNat h
  apply BitVec.eq_of_toNat_eq
  simp only [BitVec.extractLsb'_toNat, Nat.shiftRight_eq_div_pow] at h'
  simp [BitVec.extractLsb'_toNat]
  have := a1.isLt
  simp at h'
  omega

/-- The fields of a command's word decode to the command. -/
theorem decodeFields_of_fields (i : Instr) : decodeFields i.op.number i.a1 i.a0 = .ok i := by
  cases i <;> simp only [decodeFields, Instr.op, Op.number, Instr.a1, Instr.a0, formC0, formC8,
    extract_high_zeroExtend, extract_low_zeroExtend] <;> rfl

/-- A command decoded from fields has these fields. -/
theorem fields_of_decodeFields {op : BitVec 4} {a1 : BitVec 16} {a0 : BitVec 32} {i : Instr}
    (h : decodeFields op a1 a0 = .ok i) : i.op.number = op ∧ i.a1 = a1 ∧ i.a0 = a0 := by
  have hop : ∀ x : BitVec 4, x = 0 ∨ x = 1 ∨ x = 2 ∨ x = 3 ∨ x = 4 ∨ x = 5 ∨ x = 6 ∨ x = 7 ∨ x = 8 ∨
      x = 9 ∨ x = 10 ∨ x = 11 ∨ x = 12 ∨ x = 13 ∨ x = 14 ∨ x = 15 := by decide
  rcases hop op with e | e | e | e | e | e | e | e | e | e | e | e | e | e | e | e <;> subst e <;>
    simp [decodeFields, formC0, formC8] at h
  all_goals first
    | (subst h; simp [Instr.op, Op.number, Instr.a1, Instr.a0])
    | (split at h
       · next hz =>
          injection h with h
          subst h
          simp [Instr.op, Op.number, Instr.a1, Instr.a0, hz]
          try exact zeroExtend_extract_low hz.1
       · cases h)

end Sys2Proof
end

