-- ==== Sys2Proof/Laws/Environment.lean ====
section
/-! SUPPORT. The moves of LINE and BULK: what an address range holds, which transfers are inside the contract, and
everything a move that answers a next state can change. -/

namespace Sys2Proof.Machine

/-- An address of a range, by its place in it (20_memory.md R69). -/
theorem inRange_iff {base : BitVec 32} {len : Nat} (hl : len ≤ 2 ^ 32) (a : BitVec 32) :
    inRange base len a = true ↔ ∃ k, k < len ∧ a = base + BitVec.ofNat 32 k := by
  simp only [inRange, decide_eq_true_eq]
  constructor
  · intro h
    refine ⟨(a - base).toNat, h, ?_⟩
    rw [BitVec.ofNat_toNat, BitVec.setWidth_eq, BitVec.add_comm, BitVec.sub_add_cancel]
  · rintro ⟨k, hk, rfl⟩
    rw [BitVec.add_comm, BitVec.add_sub_cancel, BitVec.toNat_ofNat, Nat.mod_eq_of_lt (by omega)]
    exact hk

/-- What is inside the contract, clause by clause (42_frame_send.md R162; 60_exceptions.md R241; U1, U12). -/
theorem transferAllowed_iff (c : Config) (x : Transfer) : transferAllowed c x = true ↔
    1 ≤ x.len.toNat ∧ x.src.toNat + x.len.toNat ≤ 2 ^ 32 ∧ meetsRegisters c x.src x.len.toNat = false ∧
    (if x.dst = regAddr c .axisStatus then
      x.len.toNat ≤ c.maxPacketLen.toNat ∧ clearOfCapture c x.src x.len.toNat = true
    else
      x.dst.toNat + x.len.toNat ≤ 2 ^ 32 ∧ meetsRegisters c x.dst x.len.toNat = false ∧
        disjoint x.src x.dst x.len.toNat = true ∧ clearOfCapture c x.dst x.len.toNat = true) := by
  simp only [transferAllowed, toTransmitPath, noWrap, Bool.and_eq_true, decide_eq_true_eq,
    Bool.not_eq_true', beq_iff_eq, and_assoc]
  split <;> simp only [Bool.and_eq_true, decide_eq_true_eq, Bool.not_eq_true', and_assoc]

/-- The word the bulk engine's destination test compares with. -/
theorem toTransmitPath_iff (c : Config) (x : Transfer) :
    toTransmitPath c x = true ↔ x.dst = c.tcBase + c.off.axisStatus := beq_iff_eq

/-- Where no transfer is pending every pending transfer is inside the contract. -/
theorem pendingAllowed_of_none {s : State} (ha : s.bt.active = none) (hq : s.bt.queue = []) :
    pendingAllowed s = true := by
  simp [pendingAllowed, pendingTransfers, ha, hq]

@[simp] theorem length_pendingTransfers (bt : Bt) : (pendingTransfers bt).length = pendingCount bt := by
  cases h : bt.active <;> simp [pendingTransfers, pendingCount, h]

/-- Everything a move of LINE can change: TC, its own lists, memory. -/
theorem lineMove_frame {m : LineMove} {s t : State} (h : lineMove m s = .next t) :
    t = { s with tc := t.tc, line := t.line, mem := t.mem } := by
  cases m with
  | stageFrame =>
    simp only [lineMove] at h
    split at h
    · cases h; rw [memWriteBytes_frame]
    · cases h
  | _ =>
    simp only [lineMove] at h
    first
      | (cases h; rfl)
      | (split at h <;> cases h; rfl)

/-- Everything a move of BULK can change: BT, the transmit path's bytes, memory. -/
theorem bulkMove_frame {m : BulkMove} {s t : State} (h : bulkMove m s = .next t) :
    t = { s with bt := t.bt, line := { s.line with txBytes := t.line.txBytes }, mem := t.mem } := by
  cases m with
  | start =>
    simp only [bulkMove, bulkStart] at h
    split at h <;> cases h
    rfl
  | read i =>
    simp only [bulkMove, bulkRead] at h
    split at h
    · split at h <;> cases h
      rfl
    · cases h
  | write i =>
    simp only [bulkMove, bulkWrite, deliver] at h
    split at h
    · split at h
      · split at h
        · cases h
          split <;> rfl
        · cases h
      · cases h
    · cases h
  | noise v d =>
    simp only [bulkMove] at h
    cases h
    rfl

/-- HOST's write, when it answers a next state, is the write of one byte of memory. -/
theorem hostWriteMove_next {a : BitVec 32} {b : Byte} {s t : State} (h : hostWriteMove a b s = .next t) :
    t = memWrite a b s := by
  unfold hostWriteMove at h
  split at h
  · cases h
  · cases h
    rfl

/-- The bytes of the buffer of the RECEIVE_FRAME in flight. -/
theorem inReceiveBuffer_iff (s : State) (a : BitVec 32) :
    inReceiveBuffer s a = true ↔ ∃ (buffer : BitVec 32) (length : BitVec 16) (k : Nat), s.busy = true ∧
      s.latch = latchOf (.receiveFrame buffer length) ∧ k < length.toNat ∧ a = buffer + BitVec.ofNat 32 k := by
  simp only [inReceiveBuffer, Bool.and_eq_true, beq_iff_eq,
    inRange_iff (Nat.le_of_lt (Nat.lt_trans s.latch.a1.isLt (by decide)))]
  constructor
  · rintro ⟨⟨hb, ho⟩, k, hk, ha⟩
    exact ⟨s.latch.a0, s.latch.a1, k, hb, by cases hl : s.latch; simp_all [latchOf, Instr.op, Instr.a1, Instr.a0],
      hk, ha⟩
  · rintro ⟨buffer, length, k, hb, hl, hk, ha⟩
    rw [hl]
    exact ⟨⟨hb, rfl⟩, k, hk, ha⟩

end Sys2Proof.Machine
end

