-- ==== Sys2Proof/Laws/Step.lean ====
section
/-! SUPPORT. Everything one step of the machine can be, said once. -/

namespace Sys2Proof.Machine

/-- The latch tells commands apart. -/
theorem latchOf_inj {i j : Instr} (h : latchOf i = latchOf j) : i = j := by
  simp only [latchOf, Latch.mk.injEq] at h
  have hd := decodeFields_of_fields i
  rw [h.1, h.2.1, h.2.2, decodeFields_of_fields] at hd
  cases hd
  rfl

/-- A step is the next move, made by whichever agent's turn it is. -/
theorem step_eq_turnOf (s : State) : step s = turnOf (nextMove s) (popMove s) := rfl

/-- Taking the move off leaves the pending transfers as they are. -/
@[simp] theorem pendingAllowed_popMove (s : State) : pendingAllowed (popMove s) = pendingAllowed s := by
  simp only [pendingAllowed, popMove_bt, popMove_cfg]

/-- Under an admitted configuration and with every pending transfer inside the contract, a step is the move. -/
theorem turnOf_eq {m : Move} {s : State} (ha : admitted s.cfg = true) (hp : pendingAllowed s = true) :
    turnOf m s = takeMove m s := by
  simp only [turnOf, ha, hp, if_true]

theorem step_eq_takeMove {s : State} (ha : admitted s.cfg = true) (hp : pendingAllowed s = true) :
    step s = takeMove (nextMove s) (popMove s) := by
  rw [step_eq_turnOf]
  exact turnOf_eq (by simpa using ha) (by simpa using hp)

/-- A turn that answers a next state is a move under an admitted configuration, every pending transfer inside the contract. -/
theorem turnOf_next {m : Move} {s t : State} (h : turnOf m s = .next t) :
    admitted s.cfg = true ∧ pendingAllowed s = true ∧ takeMove m s = .next t := by
  unfold turnOf at h
  split at h
  · next ha =>
    split at h
    · next hp => exact ⟨ha, hp, h⟩
    · cases h
  · cases h

/-- So is a step. -/
theorem step_next {s t : State} (h : step s = .next t) :
    admitted s.cfg = true ∧ pendingAllowed s = true ∧ takeMove (nextMove s) (popMove s) = .next t := by
  have := turnOf_next (step_eq_turnOf s ▸ h)
  simpa using this

/-- Everything a move that answers a next state can be. -/
theorem takeMove_cases {m : Move} {s t : State} (h : takeMove m s = .next t) :
    (∃ i, exec i s = .next t ∧ ((m = .engine ∧ s.busy = true ∧ s.latch = latchOf i) ∨
      ∃ w, m = .issue w ∧ s.busy = false ∧ decode w = .ok i)) ∨
    (t = s ∧ (m = .engine ∧ s.busy = false ∨ ∃ w, m = .issue w ∧ s.busy = true)) ∨
    (∃ w e, m = .issue w ∧ s.busy = false ∧ decode w = .error e ∧ t = issueReserved w s) ∨
    (∃ a b, m = .hostWrite a b ∧ hostWriteMove a b s = .next t) ∨
    (∃ l, m = .line l ∧ lineMove l s = .next t) ∨
    (∃ b, m = .bulk b ∧ bulkMove b s = .next t) ∨
    (∃ d, m = .clock d ∧ clockMove d s = .next t) ∨
    (m = .reset ∧ t = engineReset s) := by
  unfold takeMove at h
  split at h
  · unfold engineTurn at h
    split at h
    · next hb =>
      split at h
      · next i hd =>
        obtain ⟨h1, h2, h3⟩ := fields_of_decodeFields hd
        exact .inl ⟨i, h, .inl ⟨rfl, hb, by cases hl : s.latch; simp [latchOf, h1, h2, h3, hl]⟩⟩
      · cases h
    · next hb => cases h; exact .inr (.inl ⟨rfl, .inl ⟨rfl, by simpa using hb⟩⟩)
  · next w =>
    unfold issueTurn at h
    split at h
    · next hb => cases h; exact .inr (.inl ⟨rfl, .inr ⟨w, rfl, hb⟩⟩)
    · next hb =>
      split at h
      · next i hd => exact .inl ⟨i, h, .inr ⟨w, rfl, by simpa using hb, hd⟩⟩
      · next hd => cases h; exact .inr (.inr (.inl ⟨w, _, rfl, by simpa using hb, hd, rfl⟩))
  · exact .inr (.inr (.inr (.inl ⟨_, _, rfl, h⟩)))
  · exact .inr (.inr (.inr (.inr (.inl ⟨_, rfl, h⟩))))
  · exact .inr (.inr (.inr (.inr (.inr (.inl ⟨_, rfl, h⟩)))))
  · exact .inr (.inr (.inr (.inr (.inr (.inr (.inl ⟨_, rfl, h⟩))))))
  · cases h; exact .inr (.inr (.inr (.inr (.inr (.inr (.inr ⟨rfl, rfl⟩))))))

end Sys2Proof.Machine
end

