-- ==== Sys2Proof/Laws/Exchange.lean ====
section
/-! SUPPORT. What the observers of the exchange state machines (10_state.md R50) see of a step of LINE. -/

namespace Sys2Proof.Machine

theorem reportsFrame_iff (s : State) : reportsFrame s = true ↔ nextMove s = .line (.ready .frame) := decide_eq_true_iff

/-- A frame is captured exactly by LINE's setting DATA_READY for a frame it has staged. -/
theorem capturesFrame_iff (staged : Bool) (s : State) : capturesFrame staged s = true ↔
    staged = true ∧ nextMove s = .line (.ready .frame) ∧ s.tc.dataReady = false := by
  simp only [capturesFrame, Bool.and_eq_true, reportsFrame_iff, Bool.not_eq_true', and_assoc]

/-- LINE stages bytes of a frame by two of its moves. -/
theorem stages_iff (s : State) : stages s = true ↔
    nextMove s = .line .stageFrame ∧ s.line.partialFrame ≠ [] ∨ ∃ i b, nextMove s = .line (.stage i b) := by
  unfold stages
  split
  · next m hm => cases m <;> simp [hm]
  · next hm =>
    constructor
    · intro h
      cases h
    · rintro (⟨h, _⟩ | ⟨i, b, h⟩)
      · exact absurd h (hm _)
      · exact absurd h (hm _)

end Sys2Proof.Machine
end

