-- ==== Sys2Proof/Laws/PerInstr.lean ====
section
/-! SUPPORT. What holds of every command as syntax: its word carries the match value of its row of the opcode
table under that row's mask (30_encoding.md R102, R103). -/

namespace Sys2Proof.Laws.MatchesRow

/-- The command's word is its operation's by the opcode table: (word AND mask) = match. -/
def Statement (i : Instr) : Prop := encode i &&& i.op.mask = i.op.pattern

/-- Under the mask of format C8 a word keeps OP and loses its operand. -/
theorem maskedC8 (op : BitVec 4) (v : BitVec 8) :
    ((op ++ 0#12) ++ (v.zeroExtend 16 ++ 0#32)) &&& (0xFFFFFF00FFFFFFFF : BitVec 64) =
      (op ++ 0#12) ++ (0#16 ++ 0#32) := by
  have h : (0xFFFFFF00FFFFFFFF : BitVec 64) =
      (BitVec.allOnes 4 ++ BitVec.allOnes 12) ++ (0xFF00#16 ++ BitVec.allOnes 32) := by decide
  have hv : v.zeroExtend 16 &&& 0xFF00#16 = 0#16 := by revert v; decide
  rw [h, BitVec.and_append, BitVec.and_append, BitVec.and_append]
  simp only [BitVec.and_allOnes, hv]

/-- Under the mask of format CB a word keeps OP and RSV and loses both operands. -/
theorem maskedCB (op : BitVec 4) (l : BitVec 16) (b : BitVec 32) :
    ((op ++ 0#12) ++ (l ++ b)) &&& (0xFFFF000000000000 : BitVec 64) =
      (op ++ 0#12) ++ (0#16 ++ 0#32) := by
  have h : (0xFFFF000000000000 : BitVec 64) =
      (BitVec.allOnes 4 ++ BitVec.allOnes 12) ++ (0#16 ++ 0#32) := by decide
  rw [h, BitVec.and_append, BitVec.and_append, BitVec.and_append]
  simp only [BitVec.and_allOnes, BitVec.and_zero]

theorem beginInit (v : BitVec 8) : Statement (.beginInit v) := maskedC8 1 v
theorem canStart : Statement .canStart := by unfold Statement; decide
theorem sendFrame (b : BitVec 32) (l : BitVec 16) : Statement (.sendFrame b l) := maskedCB 3 l b
theorem receiveResponse : Statement .receiveResponse := by unfold Statement; decide
theorem receiveFrame (b : BitVec 32) (l : BitVec 16) : Statement (.receiveFrame b l) := maskedCB 5 l b
theorem sendResponse (v : BitVec 8) : Statement (.sendResponse v) := maskedC8 6 v
theorem handleCollision : Statement .handleCollision := by unfold Statement; decide
theorem backOff (v : BitVec 8) : Statement (.backOff v) := maskedC8 8 v
theorem getMaxAttempts : Statement .getMaxAttempts := by unfold Statement; decide
theorem getReceiveTime : Statement .getReceiveTime := by unfold Statement; decide

end Sys2Proof.Laws.MatchesRow
end

