-- ==== Sys2Proof/Laws/Runs.lean ====
section
/-! SUPPORT. Infinite runs: what the other agents' moves leave of a command in flight, and that ENGINE's turn comes. -/

namespace Sys2Proof.Machine

/-- The command in flight stands where it stood, the run has shown nothing more, and time has not gone back. -/
structure StandsStill (s t : State) : Prop where
  cfg : t.cfg = s.cfg
  busy : t.busy = s.busy
  latch : t.latch = s.latch
  seq : t.seq = s.seq
  scratch : t.scratch = s.scratch
  resValid : t.resValid = s.resValid
  trace : t.trace = s.trace
  now : s.now.toNat ≤ t.now.toNat

theorem StandsStill.rfl {s : State} : StandsStill s s :=
  ⟨Eq.refl _, Eq.refl _, Eq.refl _, Eq.refl _, Eq.refl _, Eq.refl _, Eq.refl _, Nat.le_refl _⟩

theorem StandsStill.trans {s t u : State} (h : StandsStill s t) (h' : StandsStill t u) : StandsStill s u :=
  ⟨h'.cfg.trans h.cfg, h'.busy.trans h.busy, h'.latch.trans h.latch, h'.seq.trans h.seq,
    h'.scratch.trans h.scratch, h'.resValid.trans h.resValid, h'.trace.trans h.trace, Nat.le_trans h.now h'.now⟩

/-- While a command is in flight, a move that is neither ENGINE's nor the reset leaves it where it stood. -/
theorem turnOf_standsStill {m : Move} {s t : State} (h : turnOf m s = .next t) (he : m ≠ .engine) (hr : m ≠ .reset)
    (hb : s.busy = true) : StandsStill s t := by
  obtain ⟨i, h, ⟨hm, _⟩ | ⟨_, _, hi, _⟩⟩ | ⟨h, _⟩ | ⟨_, _, _, hi, _⟩ | ⟨_, _, _, h⟩ | ⟨_, _, h⟩ | ⟨_, _, h⟩ | ⟨d, _, h⟩ | ⟨hm, _⟩ :=
    takeMove_cases (turnOf_next h).2.2
  · exact absurd hm he
  · exact absurd (hb.symm.trans hi) (by decide)
  · exact h ▸ .rfl
  · exact absurd (hb.symm.trans hi) (by decide)
  · rw [hostWriteMove_next h]
    exact ⟨by simp, by simp, by simp, by simp, by simp, by simp, by simp, by simp⟩
  · rw [lineMove_frame h]
    exact ⟨rfl, rfl, rfl, rfl, rfl, rfl, rfl, Nat.le_refl _⟩
  · rw [bulkMove_frame h]
    exact ⟨rfl, rfl, rfl, rfl, rfl, rfl, rfl, Nat.le_refl _⟩
  · unfold clockMove at h
    split at h
    · cases h
      exact ⟨rfl, rfl, rfl, rfl, rfl, rfl, rfl, by simp only [BitVec.toNat_add, BitVec.toNat_ofNat]; omega⟩
    · cases h
  · exact absurd hm hr

/-- In a run in which ENGINE goes on, from every step at which a command is in flight ENGINE's next turn comes, and the
command stands where it stood until then. -/
theorem engine_turn_comes {moves : Nat → Move} {run : Nat → State} {n k : Nat} (hI : InfiniteRun moves run)
    (hE : EngineGoesOn moves) (hR : NoResetFrom n moves) (hk : n ≤ k) (hb : (run k).busy = true) :
    ∃ m, k ≤ m ∧ turnOf .engine (run m) = .next (run (m + 1)) ∧
      ∀ j, k ≤ j → j ≤ m → StandsStill (run k) (run j) := by
  have ex := hE k
  obtain ⟨hkm, hm⟩ := Nat.find_spec ex
  have hturn := hI (Nat.find ex)
  rw [hm] at hturn
  refine ⟨Nat.find ex, hkm, hturn, fun j hj => ?_⟩
  induction j, hj using Nat.le_induction with
  | base => exact fun _ => .rfl
  | succ j hj ih =>
    intro hjm
    have hs := ih (by omega)
    exact hs.trans (turnOf_standsStill (hI j) (fun he => Nat.find_min ex (m := j) (by omega) ⟨hj, he⟩)
      (hR j (by omega)) (hs.busy.trans hb))

end Sys2Proof.Machine
end

