-- ==== Sys2Proof/Tests/Slice0.lean ====
section
/-! SUPPORT. The model's own tests. Every expected value comes from 95_test_vectors.md (the vector is named beside
it) or from the encoding tables of 30_encoding.md; the witnesses show states that meet the hypotheses of the
statements in Certificates/Slice0/Obligations.lean. -/

namespace Sys2Proof.Tests

open Sys2Proof Sys2Proof.Machine

/-! ### Helpers -/

/-- What a next state shows; nothing for a fault or a refusal. -/
def look {α : Type} (f : State → α) : Result → Option α
  | .next t => some (f t)
  | .fault _ => none
  | .refused _ => none

/-- The step answers a next state. -/
abbrev goesOn (o : Result) : Prop := (look (fun _ => ()) o).isSome = true

/-- The command `i` in flight at phase `p`. -/
def inFlight (i : Instr) (p : Fin 16) (s : State) : State :=
  { s with busy := true, latch := latchOf i, seq := .phase i.op p }

/-- The flags of the status word set to SEND_DONE, DATA_READY, SENDING and RECEIVING. -/
def withFlags (sendDone dataReady sending receiving : Bool) (s : State) : State :=
  { s with tc := { s.tc with
    sendDone := sendDone, dataReady := dataReady, sending := sending, receiving := receiving } }

/-- The clock reads `now`, and a wait that began at `t0` lasts `dly`. -/
def waiting (t0 : BitVec 64) (dly : BitVec 40) (now : BitVec 64) (s : State) : State :=
  { s with now := now, scratch := { s.scratch with t0 := t0, dly := dly } }

/-- A BEGIN has completed and left TC.ENABLE[0] = 1; ACTIVATE_RX holds `rx`. -/
def begun (rx : BitVec 32) (s : State) : State :=
  { s with initDone := true, tc := { s.tc with enable := 1, activateRx := rx } }

/-- Configuration X2 of 95_test_vectors.md. -/
def x2 : Config := { Config.x1 with bitWidth := 7, bitSpacer := 3, responseOffset := 5, latency := 2 }

/-- X1 with a capture buffer of two bytes. -/
def small : Config := { Config.x1 with maxPacketLen := 2 }

/-- X1 with a TC region at an address 2 above a multiple of 4 and offsets 2 below one: each register stands at a multiple
of 4, and no TC offset is one. -/
def oddOffsets : Config :=
  { Config.x1 with
    tcBase := 0x20000002
    off := { activateRx := 0x02, preambleLen := 0x06, padLen := 0x0A, dataBitWidth := 0x0E, acceptance := 0x12,
             enable := 0x16, axisStatus := 0x1A, rxData := 0x1E } }

/-- A state after reset. -/
abbrev r : State := State.reset

theorem atPhase_inFlight (i : Instr) (p : Fin 16) (s : State) : atPhase i p (inFlight i p s) :=
  ⟨rfl, rfl, rfl⟩

/-! ### Decoding: V1, words written out bit by bit from R101, R104 to R106 -/

theorem test_decode_begin :
    decode 0b0001_000000000000_0000000000000101_00000000000000000000000000000000 = .ok (.beginInit 5) ∧
    decode 0x100000FF00000000 = .ok (.beginInit 255) := by decide

theorem test_decode_can_start :
    decode 0b0010_000000000000_0000000000000000_00000000000000000000000000000000 = .ok .canStart := by decide

theorem test_decode_send_frame :
    decode 0b0011_000000000000_0000000000001000_00010000000000000000000100000000 =
      .ok (.sendFrame 0x10000100 8) ∧
    decode 0x3000FFFFFFFFFFFF = .ok (.sendFrame 0xFFFFFFFF 65535) ∧
    decode 0x3000000000000000 = .ok (.sendFrame 0 0) := by decide

theorem test_decode_receive_response :
    decode 0b0100_000000000000_0000000000000000_00000000000000000000000000000000 = .ok .receiveResponse := by
  decide

theorem test_decode_receive_frame :
    decode 0b0101_000000000000_0000000000110010_00010000000000000000001000000000 =
      .ok (.receiveFrame 0x10000200 50) := by decide

theorem test_decode_send_response :
    decode 0b0110_000000000000_0000000000010101_00000000000000000000000000000000 =
      .ok (.sendResponse 0x15) := by decide

theorem test_decode_handle_collision :
    decode 0b0111_000000000000_0000000000000000_00000000000000000000000000000000 = .ok .handleCollision := by
  decide

theorem test_decode_back_off :
    decode 0b1000_000000000000_0000000000000011_00000000000000000000000000000000 = .ok (.backOff 3) := by
  decide

theorem test_decode_get_max_attempts :
    decode 0b1001_000000000000_0000000000000000_00000000000000000000000000000000 = .ok .getMaxAttempts := by
  decide

theorem test_decode_get_receive_time :
    decode 0b1010_000000000000_0000000000000000_00000000000000000000000000000000 = .ok .getReceiveTime := by
  decide

/-- V1: the RESERVED words, each with the reason R102 gives. -/
theorem test_decode_reserved :
    decode 0x0000000000000000 = .error .opReserved ∧ decode 0xB000000000000000 = .error .opReserved ∧
    decode 0xF000000000000000 = .error .opReserved ∧ decode 0xFFFFFFFFFFFFFFFF = .error .rsvNotZero ∧
    decode 0x1000010000000000 = .error .operandNotZero ∧ decode 0x1000000500000001 = .error .operandNotZero ∧
    decode 0x2000000000000001 = .error .operandNotZero ∧ decode 0x2000000100000000 = .error .operandNotZero ∧
    decode 0x3001000810000100 = .error .rsvNotZero := by decide

/-- The encoder gives the words of V1. -/
theorem test_encode :
    encode (.beginInit 5) = 0x1000000500000000 ∧ encode (.sendFrame 0x10000100 8) = 0x3000000810000100 ∧
    encode (.receiveFrame 0x10000200 50) = 0x5000003210000200 ∧
    encode (.sendResponse 6) = 0x6000000600000000 ∧ encode .handleCollision = 0x7000000000000000 := by decide

/-- R114: its two examples, an alias, and an operand too large for its field. -/
theorem test_assemble :
    (assemble "SEND_FRAME" [0x10000100, 8]).map encode = some 0x3000000810000100 ∧
    (assemble "BACK_OFF" [2]).map encode = some 0x8000000200000000 ∧
    assemble "INITIALIZE" [5] = some (.beginInit 5) ∧ assemble "CHANNEL_IS_FREE" [] = some .canStart ∧
    assemble "BACK_OFF" [256] = none := by decide

/-- The host's two functions, on the rows of the opcode table with operands of zeros. -/
theorem test_table_words :
    decodeTableWord 64 0x1000000000000000 = some (.beginInit 0) ∧
    decodeTableWord 64 0x5000000000000000 = some (.receiveFrame 0 0) ∧
    decodeTableWord 64 0xA000000000000000 = some .getReceiveTime ∧
    decodeTableWord 64 0xB000000000000000 = none := by decide

/-- A placed word is what the very next step runs. -/
theorem test_placed_word_runs :
    look (fun t => t.res) (step (r.withFetchWord 64 0x9000000000000000)) = some 20 ∧
    look (fun t => t.seq) (step (r.withFetchWord 64 0x2000000000000000)) = some (.phase .canStart 0) := by
  decide

/-! ### Well-formedness: each check refuses an ill-formed term -/

theorem test_word_checks :
    wordWellFormed 0x3000000810000100 = true ∧
    wordWellFormed 0x0000000000000000 = false ∧ wordWellFormed 0xB000000000000000 = false ∧
    wordWellFormed 0x3001000810000100 = false ∧ wordWellFormed 0x2000000000000001 = false ∧
    wordWellFormed 0x2000000100000000 = false ∧ wordWellFormed 0x1000010000000000 = false ∧
    wordWellFormed 0x1000000500000001 = false := by decide

theorem test_contract_checks :
    withinContract 50 (.sendFrame 0 50) = true ∧ withinContract 50 (.sendFrame 0 0) = false ∧
    withinContract 50 (.sendFrame 0 51) = false ∧ withinContract 50 (.receiveFrame 0 0) = false ∧
    withinContract 50 (.receiveFrame 0 51) = false := by decide

/-- R8: X1 and X2 are admitted; a configuration that breaks one constraint is not. -/
theorem test_configuration_checks :
    admitted Config.x1 = true ∧ admitted x2 = true ∧
    admitted { Config.x1 with mode := 0 } = false ∧ admitted { Config.x1 with mode := 5 } = false ∧
    admitted { Config.x1 with maxPacketLen := 0 } = false ∧
    admitted { Config.x1 with maxPacketLen := 65535, responseOffset := 0 } = false ∧
    admitted { Config.x1 with bitSpacer := 0, bitWidth := 3 } = false ∧
    admitted { Config.x1 with responseOffset := 1200 } = false ∧
    admitted { Config.x1 with degree := 8 } = false ∧ admitted { Config.x1 with pollBound := 0 } = false ∧
    admitted { Config.x1 with clockHz := 999999 } = false ∧
    admitted { Config.x1 with btBase := 0x20000000 } = false ∧
    admitted { Config.x1 with tcBase := 0x20000002 } = false ∧
    admitted oddOffsets = false ∧
    admitted { Config.x1 with captureAddr := 0x2000001F } = false ∧
    admitted { Config.x1 with btQueueDepth := 1 } = false ∧
    admitted { Config.x1 with fail := 255 } = false ∧
    admitted { Config.x1 with maxPacketLen := 300, fail := 300 } = false := by decide

/-! ### One step of each command -/

/-- V2 b: BEGIN 5 has DLY = 5000. -/
theorem test_begin_delay :
    look (fun t => (t.scratch.dly, t.seq)) (exec (.beginInit 5) r) = some (5000, .phase .beginInit 0) := by
  decide

/-- V2 b: the wait goes on at 5099 and ends at 5100. -/
theorem test_begin_wait :
    look (fun t => t.seq) (exec (.beginInit 5) (inFlight (.beginInit 5) 1 (waiting 100 5000 5099 r))) =
      some (.phase .beginInit 1) ∧
    look (fun t => t.seq) (exec (.beginInit 5) (inFlight (.beginInit 5) 1 (waiting 100 5000 5100 r))) =
      some (.phase .beginInit 2) := by decide

/-- V3: 0x8 gives 0, 0x7 gives 1. -/
theorem test_can_start :
    look (fun t => t.res) (exec .canStart (inFlight .canStart 0 (withFlags false false false true r))) =
      some 0 ∧
    look (fun t => t.res) (exec .canStart (inFlight .canStart 0 (withFlags true true true false r))) =
      some 1 := by decide

/-- V6: TIMEOUT for length 8 under X1, for length 9 under X2 and for the greatest length. -/
theorem test_send_frame_timeout :
    look (fun t => t.timeout) (exec (.sendFrame 0x10000100 8) r) = some 173 ∧
    look (fun t => t.timeout) (exec (.sendFrame 0x10000100 9) (State.resetWith x2)) = some 47 ∧
    look (fun t => t.timeout) (exec (.sendFrame 0x10000100 65535) r) = some 1310713 := by decide

/-- V8 b: a status of 0x5 holds the frame back, 0x1 does not. -/
theorem test_send_frame_waits :
    look (fun t => t.seq)
      (exec (.sendFrame 0 8) (inFlight (.sendFrame 0 8) 0 (withFlags true false true false r))) =
        some (.phase .sendFrame 0) ∧
    look (fun t => t.seq)
      (exec (.sendFrame 0 8) (inFlight (.sendFrame 0 8) 0 (withFlags true false false false r))) =
        some (.phase .sendFrame 1) := by decide

/-- V7: REP and the marker word for TIMEOUT 47 and 252 under X2. -/
theorem test_receive_response_marker :
    look (fun t => t.scratch.rep)
      (exec .receiveResponse (inFlight .receiveResponse 0 { State.resetWith x2 with timeout := 47 })) =
        some 8 ∧
    look (fun t => t.line.txWords) (exec .receiveResponse (inFlight .receiveResponse 1
      { r with scratch := { r.scratch with rep := 38 } })) = some [0x00000426] := by decide

/-- V9 b: only the low byte of RX_DATA is returned; V9 c: at 1000 microseconds the window is over. -/
theorem test_receive_response_exits :
    look (fun t => t.res) (exec .receiveResponse (inFlight .receiveResponse 9
      { r with scratch := { r.scratch with v := 0xABCDEF15 } })) = some 0x15 ∧
    look (fun t => t.seq) (exec .receiveResponse (inFlight .receiveResponse 7 (waiting 6000 0 6999 r))) =
      some (.phase .receiveResponse 6) ∧
    look (fun t => t.seq) (exec .receiveResponse (inFlight .receiveResponse 7 (waiting 6000 0 7000 r))) =
      some (.phase .receiveResponse 10) := by decide

/-- V11 c, d, e: short reads. -/
theorem test_receive_frame_short :
    look (fun t => (t.res, t.busy)) (exec (.receiveFrame 0x10000210 10) r) = some (10, false) ∧
    look (fun t => (t.res, t.busy)) (exec (.receiveFrame 0 51) r) = some (51, false) ∧
    look (fun t => (t.res, t.busy)) (exec (.receiveFrame 0 0xFFFF) r) = some (0xFFFF, false) := by decide

/-- V11 a and f: 0x8 is not ready, 0xA is. -/
theorem test_receive_frame_ready :
    look (fun t => (t.res, t.bt))
      (exec (.receiveFrame 0 50) (inFlight (.receiveFrame 0 50) 0 (withFlags false false false true r))) =
        some (0xFFFF, r.bt) ∧
    look (fun t => t.seq)
      (exec (.receiveFrame 0 50) (inFlight (.receiveFrame 0 50) 0 (withFlags false true false true r))) =
        some (.phase .receiveFrame 1) := by decide

/-- V10 a and c: the response words. -/
theorem test_send_response_word :
    look (fun t => t.line.txWords) (exec (.sendResponse 6) (inFlight (.sendResponse 6) 0 r)) =
      some [0x00000306] ∧
    look (fun t => t.line.txWords) (exec (.sendResponse 255) (inFlight (.sendResponse 255) 0 r)) =
      some [0x000003FF] := by decide

/-- V10 d: never accepted, the command completes with 0 at the fourth read and not at the third. -/
theorem test_send_response_bound :
    look (fun t => (t.res, t.busy)) (exec (.sendResponse 6) (inFlight (.sendResponse 6) 1
      { r with scratch := { r.scratch with cnt := 3 } })) = some (0, false) ∧
    look (fun t => (t.seq, t.busy)) (exec (.sendResponse 6) (inFlight (.sendResponse 6) 1
      { r with scratch := { r.scratch with cnt := 2 } })) = some (.phase .sendResponse 1, true) := by decide

/-- V5 b: 4 of 9 microseconds have passed, then 10. -/
theorem test_handle_collision_wait :
    look (fun t => t.busy) (exec .handleCollision (inFlight .handleCollision 2 (waiting 7000 9 7004 r))) =
      some true ∧
    look (fun t => (t.busy, t.res))
      (exec .handleCollision (inFlight .handleCollision 2 (waiting 7000 9 7010 r))) =
        some (false, 0) := by decide

/-- V5 c, d: with COLLISION_DELAY_MAX_US 16 the draw is at most 16, whatever RNG answers. -/
theorem test_handle_collision_draw : draw 16 r ≤ 16 := draw_le 16 r

/-- V4: attempts 85 at DEGREE 4 goes past 2^32, attempts 255 at DEGREE 7 stays below 2^64. -/
theorem test_back_off :
    look (fun t => t.res) (exec (.backOff 85) r) = some 4437053125 ∧
    look (fun t => t.res) (exec (.backOff 255) (State.resetWith { Config.x1 with degree := 7 })) =
      some 17878103347812890625 ∧
    look (fun t => t.res) (exec (.backOff 0) r) = some 0 := by decide

/-- V12. -/
theorem test_get_max_attempts : look (fun t => t.res) (exec .getMaxAttempts r) = some 20 := by decide

/-- V12. -/
theorem test_get_receive_time : look (fun t => t.res) (exec .getReceiveTime r) = some 1000 := by decide

/-- P4 command 1: a RESERVED word completes with 0xFFFF and shows only its issue and its completion. -/
theorem test_reserved_word :
    look (fun t => (t.res, t.busy, t.trace)) (step (r.withFetchWord 64 0xF000000000000000)) =
      some (0xFFFF, false, [.completed 0xFFFF, .issued 0xF000000000000000]) := by decide

/-- V11 g: only bit 0 of BT.DONE counts. -/
theorem test_done_bit : doneOf 0xFFFFFFFE = false ∧ doneOf 1 = true ∧ doneOf 0xFFFFFFFF = true := by decide

/-- V9 h: a read of TC.RX_DATA clears DATA_READY with RESP_READ_CLEARS_READY true, and does not with false. -/
theorem test_read_clears_ready :
    look (fun t => t.tc.dataReady)
      (exec .receiveResponse (inFlight .receiveResponse 8 (withFlags false true false false r))) =
        some false ∧
    look (fun t => t.tc.dataReady)
      (exec .receiveResponse (inFlight .receiveResponse 8
        (withFlags false true false false (State.resetWith { Config.x1 with respReadClearsReady := false })))) =
        some true := by decide

/-- R238, R235, R37: LINE clears DATA_READY before a BEGIN has completed, is refused it afterwards, and is free again
once TC.ENABLE[0] = 0. -/
theorem test_line_contract :
    look (fun t => t.tc.dataReady) (lineMove .unready (withFlags false true false false r)) = some false ∧
    look (fun t => t.tc.dataReady) (lineMove .unready (begun 0 (withFlags false true false false r))) = none ∧
    look (fun t => t.tc.dataReady) (lineMove .unready { begun 0 (withFlags false true false false r) with
      tc := { (begun 0 (withFlags false true false false r)).tc with enable := 0 } }) = some false := by decide

/-- R278: what arrives while capture is off is lost, and the frame it belongs to with it; with capture on it is not. -/
theorem test_capture_gap :
    look (fun t => t.line.partialFrame)
      (lineMove (.hear 0xA2) { begun 0 r with line := ⟨[], [], [0xA1]⟩ }) = some [] ∧
    look (fun t => t.line.partialFrame)
      (lineMove (.hear 0xA2) { begun 1 r with line := ⟨[], [], [0xA1]⟩ }) = some [0xA1, 0xA2] := by decide

/-- R39: each flag alone in the status word. -/
theorem test_status_bits :
    statusWord (withFlags true false false false r).tc = 1 ∧ statusWord (withFlags false true false false r).tc = 2 ∧
    statusWord (withFlags false false true false r).tc = 4 ∧
    statusWord (withFlags false false false true r).tc = 8 := by decide

/-- R241, U12: each bound of the contract, just inside and just outside; the capture buffer of X1 is 20002000 to 20002031,
its last TC register byte 2000001F, the last byte of its BT region 20001013. -/
theorem test_transfer_contract :
    transferAllowed Config.x1 ⟨0x10000100, 0x20000018, 1⟩ = true ∧
    transferAllowed Config.x1 ⟨0x10000100, 0x20000018, 0⟩ = false ∧
    transferAllowed Config.x1 ⟨0x10000100, 0x20000018, 50⟩ = true ∧
    transferAllowed Config.x1 ⟨0x10000100, 0x20000018, 51⟩ = false ∧
    transferAllowed Config.x1 ⟨0xFFFFFFF8, 0x20000018, 8⟩ = true ∧
    transferAllowed Config.x1 ⟨0xFFFFFFF8, 0x20000018, 9⟩ = false ∧
    transferAllowed Config.x1 ⟨0x20000020, 0x20000018, 1⟩ = true ∧
    transferAllowed Config.x1 ⟨0x2000001F, 0x20000018, 1⟩ = false ∧
    transferAllowed Config.x1 ⟨0x20002032, 0x20000018, 1⟩ = true ∧
    transferAllowed Config.x1 ⟨0x20002031, 0x20000018, 1⟩ = false ∧
    transferAllowed Config.x1 ⟨0x20002000, 0x10000200, 50⟩ = true ∧
    transferAllowed Config.x1 ⟨0x20002000, 0x20001014, 50⟩ = true ∧
    transferAllowed Config.x1 ⟨0x20002000, 0x20001013, 50⟩ = false ∧
    transferAllowed Config.x1 ⟨0x20002000, 0x20001FCE, 50⟩ = true ∧
    transferAllowed Config.x1 ⟨0x20002000, 0x20001FCF, 50⟩ = false ∧
    transferAllowed Config.x1 ⟨0x10000100, 0x10000108, 8⟩ = true ∧
    transferAllowed Config.x1 ⟨0x10000100, 0x10000107, 8⟩ = false := by decide

/-! ### Witnesses: for each statement with hypotheses, a state and operands that meet them -/

/-- A machine whose schedule is `ms`. -/
def scheduled (ms : List Move) (s : State) : State := { s with schedule := ms }

theorem witness_EachCommandHasOneWord : decode 0x2000000000000000 = .ok .canStart := by decide

theorem witness_StepRunsTheDecodedCommand :
    (admitted r.cfg = true ∧ pendingAllowed r = true ∧
      nextMove (scheduled [.issue 0x2000000000000000] r) = .issue 0x2000000000000000 ∧ r.busy = false ∧
      decode 0x2000000000000000 = .ok .canStart) ∧
    (let s := scheduled [.engine] (inFlight .canStart 0 r)
     admitted s.cfg = true ∧ pendingAllowed s = true ∧ nextMove s = .engine ∧ s.busy = true ∧
       s.latch = latchOf .canStart) ∧
    nextMove (scheduled [.line (.ready .frame)] r) = .line (.ready .frame) ∧
    nextMove (scheduled [.bulk .start] r) = .bulk .start ∧
    nextMove (scheduled [.clock 1] r) = .clock 1 ∧
    nextMove (scheduled [.hostWrite 0x10000100 7] r) = .hostWrite 0x10000100 7 := by
  decide

theorem witness_WordOfferedWhileBusyIsNotTaken :
    let s := scheduled [.issue 0x2000000000000000] (inFlight .handleCollision 0 r)
    s.busy = true ∧ admitted s.cfg = true ∧ pendingAllowed s = true ∧ nextMove s = .issue 0x2000000000000000 ∧
      s.latch ≠ latchOf .canStart := by decide

theorem witness_ReservedWordCompletesWithFail :
    let s := scheduled [.issue 0xB000000000000000] r
    admitted s.cfg = true ∧ pendingAllowed s = true ∧ nextMove s = .issue 0xB000000000000000 ∧ s.busy = false ∧
      decode 0xB000000000000000 = .error .opReserved := by decide

/-- R200: for RECEIVE_FRAME the length is MAX_PACKET_LEN; the other commands with an access have no such bound. -/
theorem witness_IssueLatchesTheCommand :
    r.busy = false ∧ 0 < phaseCount (Instr.receiveFrame 0 50).op ∧
      (∀ b l, Instr.receiveFrame 0 50 = .receiveFrame b l → l = r.cfg.maxPacketLen) ∧
      0 < phaseCount (Instr.sendFrame 0 8).op ∧
      (∀ b l, Instr.sendFrame 0 8 = .receiveFrame b l → l = r.cfg.maxPacketLen) := by
  refine ⟨rfl, by decide, ?_, by decide, ?_⟩
  · intro b l h; cases h; rfl
  · intro b l h; cases h

/-- Each phase of BEGIN, the wait both at its last microsecond and just before it. -/
theorem witness_BeginFollowsItsPhases :
    r.busy = false ∧ atPhase (.beginInit 5) 0 (inFlight (.beginInit 5) 0 r) ∧
    (let s := inFlight (.beginInit 5) 1 (waiting 100 5000 5100 r)
     atPhase (.beginInit 5) 1 s ∧ s.scratch.t0.toNat + s.scratch.dly.toNat ≤ s.now.toNat) ∧
    (let s := inFlight (.beginInit 5) 1 (waiting 100 5000 5099 r)
     atPhase (.beginInit 5) 1 s ∧ s.now.toNat < s.scratch.t0.toNat + s.scratch.dly.toNat) ∧
    atPhase (.beginInit 5) 2 (inFlight (.beginInit 5) 2 r) ∧
    atPhase (.beginInit 5) 3 (inFlight (.beginInit 5) 3 r) ∧
    atPhase (.beginInit 5) 4 (inFlight (.beginInit 5) 4 r) ∧
    atPhase (.beginInit 5) 5 (inFlight (.beginInit 5) 5 r) ∧
    atPhase (.beginInit 5) 6 (inFlight (.beginInit 5) 6 r) ∧
    atPhase (.beginInit 5) 7 (inFlight (.beginInit 5) 7 r) := by decide

theorem witness_BeginConfiguresAndArms :
    let s := scheduled (.issue (encode (.beginInit 5)) :: .engine :: .clock 5000 ::
      (List.replicate 7 Move.engine ++ [Move.engine])) r
    admitted s.cfg = true ∧ pendingAllowed s = true ∧ s.busy = false ∧ (5 : BitVec 8).toNat * s.cfg.startupUnitUs.toNat ≤ 5000 ∧
      s.now.toNat + 5000 < 2 ^ 64 := by decide

theorem witness_StatusAndDoneWordsAreLaidOutAsListed :
    atPhase .canStart 0 (inFlight .canStart 0 (withFlags true true true true r)) ∧
    atPhase (.receiveFrame 0 50) 4 (inFlight (.receiveFrame 0 50) 4 r) := by decide

theorem witness_CanStartReturnsNotReceiving :
    r.busy = false ∧ atPhase .canStart 0 (inFlight .canStart 0 (withFlags true true true false r)) := by decide

theorem witness_BackOffReturnsThePower : admitted r.cfg = true ∧ r.busy = false := by decide

theorem witness_BackOffIsDeterministicAndIncreasing :
    admitted r.cfg = true ∧ r.busy = false ∧ r.cfg.degree = 4 ∧
      (look (fun t => t.busy) (exec (.backOff 1) r)).isSome = true ∧
      (look (fun t => t.busy) (exec (.backOff 2) r)).isSome = true ∧
      (look (fun t => t.busy) (exec (.backOff 85) r)).isSome = true ∧
      (1 : BitVec 8).toNat < (2 : BitVec 8).toNat := by decide

theorem witness_AccessorsReturnTheConfiguration : r.busy = false := by decide

theorem witness_HandleCollisionWaitsTheDraw :
    r.busy = false ∧ atPhase .handleCollision 0 (inFlight .handleCollision 0 r) ∧
    atPhase .handleCollision 1 (inFlight .handleCollision 1 r) ∧
    (let s := inFlight .handleCollision 2 (waiting 7000 16 7016 r)
     atPhase .handleCollision 2 s ∧ s.scratch.t0.toNat + s.scratch.dly.toNat ≤ s.now.toNat) ∧
    (let s := inFlight .handleCollision 2 (waiting 7000 16 7015 r)
     atPhase .handleCollision 2 s ∧ s.now.toNat < s.scratch.t0.toNat + s.scratch.dly.toNat) := by decide

/-- The five commands named, each answering a next state. -/
theorem witness_ReadersAndTimersChangeOnlyTheResult :
    (look (fun t => t.busy) (exec .canStart (inFlight .canStart 0 r))).isSome = true ∧
    (look (fun t => t.busy) (exec .handleCollision (inFlight .handleCollision 1 r))).isSome = true ∧
    (look (fun t => t.busy) (exec (.backOff 3) r)).isSome = true ∧
    (look (fun t => t.busy) (exec .getMaxAttempts r)).isSome = true ∧
    (look (fun t => t.busy) (exec .getReceiveTime r)).isSome = true := by decide

theorem witness_BeginChangesOnlyTheSixRegisters :
    (look (fun t => t.busy) (exec (.beginInit 5) (inFlight (.beginInit 5) 6 r))).isSome = true := by decide

theorem witness_SendFrameFollowsItsPhases :
    r.busy = false ∧ (∀ q : Fin 4, atPhase (.sendFrame 0 8) (q.castLE (by decide))
      (inFlight (.sendFrame 0 8) (q.castLE (by decide)) r)) ∧
    pendingCount (inFlight (.sendFrame 0 8) 3 r).bt < r.cfg.btQueueDepth ∧
    -- the greatest number of transfers pending that leaves room under X1
    pendingCount { r.bt with queue := [⟨0, 0, 1⟩] } < r.cfg.btQueueDepth := by
  exact ⟨rfl, fun q => atPhase_inFlight _ _ r, by decide, by decide⟩

theorem witness_SendFrameSubmitsTheFrame :
    r.busy = false ∧ r.tc.sending = false ∧ pendingCount r.bt < r.cfg.btQueueDepth := by decide

theorem witness_SendFrameHangsWhileSending :
    let s := inFlight (.sendFrame 0 8) 0 (withFlags false false true false r)
    atPhase (.sendFrame 0 8) 0 s ∧ s.tc.sending = true := by decide

theorem witness_SendFrameChangesOnlyTheSubmission :
    (look (fun t => t.busy) (exec (.sendFrame 0 8) (inFlight (.sendFrame 0 8) 3 r))).isSome = true := by decide

/-- Each phase of RECEIVE_RESPONSE; a wait at POLL_BOUND - 1 reads meets the bound, at none it does not. -/
theorem witness_ReceiveResponseFollowsItsPhases :
    let last := { r with scratch := { r.scratch with cnt := 3 } }
    let on := withFlags false false true true r
    let off := withFlags false false false false r
    r.busy = false ∧
      (last.scratch.cnt + 1 = last.cfg.pollBound) ∧ ¬ (r.scratch.cnt + 1 = r.cfg.pollBound) ∧
      atPhase .receiveResponse 0 (inFlight .receiveResponse 0 r) ∧
      atPhase .receiveResponse 1 (inFlight .receiveResponse 1 r) ∧
      atPhase .receiveResponse 2 (inFlight .receiveResponse 2 last) ∧
      (atPhase .receiveResponse 2 (inFlight .receiveResponse 2 on) ∧ on.tc.sending = true) ∧
      (atPhase .receiveResponse 2 (inFlight .receiveResponse 2 off) ∧ off.tc.sending = false) ∧
      atPhase .receiveResponse 3 (inFlight .receiveResponse 3 last) ∧
      (atPhase .receiveResponse 3 (inFlight .receiveResponse 3 off) ∧ off.tc.sending = false) ∧
      (atPhase .receiveResponse 3 (inFlight .receiveResponse 3 on) ∧ on.tc.sending = true) ∧
      atPhase .receiveResponse 4 (inFlight .receiveResponse 4 last) ∧
      (atPhase .receiveResponse 4 (inFlight .receiveResponse 4 off) ∧ off.tc.receiving = false) ∧
      (atPhase .receiveResponse 4 (inFlight .receiveResponse 4 on) ∧ on.tc.receiving = true) ∧
      atPhase .receiveResponse 5 (inFlight .receiveResponse 5 r) ∧
      atPhase .receiveResponse 6 (inFlight .receiveResponse 6 r) ∧
      atPhase .receiveResponse 7 (inFlight .receiveResponse 7 (waiting 6000 0 7000 r)) ∧
      atPhase .receiveResponse 8 (inFlight .receiveResponse 8 r) ∧
      atPhase .receiveResponse 9 (inFlight .receiveResponse 9 r) ∧
      atPhase .receiveResponse 10 (inFlight .receiveResponse 10 r) := by decide

/-- The TIMEOUT of the longest frame, under a configuration R8 admits. -/
theorem witness_RepetitionCountIsTheRoundedQuotient :
    (let s := inFlight .receiveResponse 0 { r with timeout := timeoutOf Config.x1 50 }
     admitted s.cfg = true ∧ atPhase .receiveResponse 0 s ∧
      (50 : BitVec 16).toNat ≤ s.cfg.maxPacketLen.toNat ∧ s.timeout = timeoutOf s.cfg 50) ∧
    Config.x1.bitSpacer = 112 ∧ Config.x1.bitWidth = 40 ∧ x2.bitSpacer = 3 ∧ x2.bitWidth = 7 := by decide

theorem witness_ReadyResponseIsReturned :
    let s := withFlags false true false false r
    admitted s.cfg = true ∧ s.busy = false ∧ s.tc.dataReady = true := by decide

theorem witness_UnansweredRequestTimesOut :
    let s := scheduled (.issue (encode .receiveResponse) ::
      (List.replicate 10 Move.engine ++ (Move.clock 1000 :: Move.engine :: Move.engine :: [Move.engine]))) r
    admitted s.cfg = true ∧ pendingAllowed s = true ∧ s.busy = false ∧ s.tc.dataReady = false ∧
      s.tc.sending = false ∧
      s.tc.receiving = false ∧ s.now.toNat + 1000 < 2 ^ 64 ∧ s.cfg.pollBound + 6 = 10 := by decide

/-- The record of V9 a at P9. -/
def responseTrace : List Event :=
  [.read .rxData 6, .read .status 2, .read .status 0, .read .status 0, .read .status 4,
   .wrote .txCmd 0x402, .wrote .activateRx 0, .issued 0x4000000000000000]

theorem responseInv_of_phase {s : State} {p : Fin 16} (h : s.seq = .phase .receiveResponse p)
    (hr : responseSoFar p.val s) : responseInv s := by
  intro q hq
  rw [h] at hq
  cases hq
  exact hr

theorem witness_ResponseExchangeShowsOneRequest :
    let s := inFlight .receiveResponse 9 { r with trace := responseTrace }
    responseInv s ∧ atPhase .receiveResponse 9 s := by
  refine ⟨responseInv_of_phase (p := 9) rfl ?_, atPhase_inFlight _ _ _⟩
  exact ⟨[.read .rxData 6, .read .status 2, .read .status 0, .read .status 0, .read .status 4], 0x402,
    rfl, rfl, by decide, by decide, by decide, by decide, by decide, fun h => absurd h (by decide),
    fun _ => ⟨6, 2, _, rfl, by decide, by decide⟩, fun h => absurd h (by decide)⟩

/-- The other exit: the record of V9 e at P10. -/
theorem witness_ResponseExchangeShowsOneRequest_timeout :
    let s := inFlight .receiveResponse 10 (waiting 6000 0 8000 { r with
      trace := [.read .status 0, .read .status 0, .read .status 0, .read .status 4,
        .wrote .txCmd 0x402, .wrote .activateRx 0, .issued 0x4000000000000000] })
    responseInv s ∧ atPhase .receiveResponse 10 s := by
  refine ⟨responseInv_of_phase (p := 10) rfl ?_, atPhase_inFlight _ _ _⟩
  exact ⟨[.read .status 0, .read .status 0, .read .status 0, .read .status 4], 0x402,
    rfl, rfl, by decide, by decide, by decide, by decide, by decide, fun h => absurd h (by decide),
    fun h => absurd h (by decide), fun _ => by decide⟩

/-- Its last part, at P5, at P9 (the completion), and at P7 just when the window ends. -/
theorem witness_ResponseExchangeShowsOneRequest_window :
    (atPhase .receiveResponse 5 (inFlight .receiveResponse 5 r) ∧
      (look (fun t => t.busy) (exec .receiveResponse (inFlight .receiveResponse 5 r))) = some true) ∧
    (atPhase .receiveResponse 9 (inFlight .receiveResponse 9 r) ∧
      (look (fun t => t.busy) (exec .receiveResponse (inFlight .receiveResponse 9 r))) = some false) ∧
    (let s := inFlight .receiveResponse 7 (waiting 6000 0 7000 r)
     atPhase .receiveResponse 7 s ∧
      look (fun t => t.seq) (exec .receiveResponse s) = some (.phase .receiveResponse 10)) := by decide

theorem witness_EveryStepKeepsTheResponseRecord :
    let s := scheduled [.engine] (inFlight .receiveResponse 0
      { r with trace := [.issued 0x4000000000000000] })
    responseInv s ∧ (look (fun t => t.busy) (step s)).isSome = true :=
  ⟨responseInv_of_phase (p := 0) rfl rfl, by decide⟩

theorem witness_ReceiveResponseChangesOnlyCaptureAndMarker :
    (look (fun t => t.busy) (exec .receiveResponse (inFlight .receiveResponse 8 r))).isSome = true := by decide

theorem witness_SendResponseFollowsItsPhases :
    r.busy = false ∧ atPhase (.sendResponse 6) 0 (inFlight (.sendResponse 6) 0 r) ∧
    (let s := inFlight (.sendResponse 6) 1 (withFlags true false false false r)
     atPhase (.sendResponse 6) 1 s ∧ s.tc.sendDone = true) ∧
    (let s := inFlight (.sendResponse 6) 1 { r with scratch := { r.scratch with cnt := 3 } }
     atPhase (.sendResponse 6) 1 s ∧ s.scratch.cnt + 1 = s.cfg.pollBound) ∧
    (let s := inFlight (.sendResponse 6) 1 { r with scratch := { r.scratch with cnt := 2 } }
     atPhase (.sendResponse 6) 1 s ∧ s.tc.sendDone = false ∧ s.scratch.cnt + 1 ≠ s.cfg.pollBound) := by
  decide

theorem witness_SendResponseLeavesCaptureAsFound :
    let s0 := scheduled [.engine] (inFlight (.sendResponse 6) 0 (begun 1 r))
    let s1 := scheduled [.engine] (inFlight (.sendResponse 6) 1 (begun 1 r))
    let i := scheduled [.issue (encode (.sendResponse 6))] (begun 1 r)
    (s0.initDone = true ∧ s0.tc.enable.getLsbD 0 = true ∧ goesOn (step s0) ∧ atPhase (.sendResponse 6) 0 s0) ∧
    (s1.initDone = true ∧ s1.tc.enable.getLsbD 0 = true ∧ goesOn (step s1) ∧ atPhase (.sendResponse 6) 1 s1) ∧
    (i.initDone = true ∧ i.tc.enable.getLsbD 0 = true ∧ goesOn (step i) ∧ i.busy = false ∧
      nextMove i = .issue (encode (.sendResponse 6))) := by decide

theorem witness_SendResponseChangesOnlyTheTransmitPath :
    (look (fun t => t.busy) (exec (.sendResponse 6) (inFlight (.sendResponse 6) 0 r))).isSome = true := by
  decide

/-- MAX_PACKET_LEN - 1 and MAX_PACKET_LEN + 1. -/
theorem witness_ShortReadCompletesWithoutAnyCopy :
    r.busy = false ∧ (49 : BitVec 16) ≠ r.cfg.maxPacketLen ∧ (51 : BitVec 16) ≠ r.cfg.maxPacketLen := by decide

theorem witness_ReceiveFrameFollowsItsPhases :
    (r.busy = false ∧ (49 : BitVec 16) ≠ r.cfg.maxPacketLen) ∧
    (r.busy = false ∧ (50 : BitVec 16) = r.cfg.maxPacketLen) ∧
    (let s := inFlight (.receiveFrame 0 50) 0 r
     atPhase (.receiveFrame 0 50) 0 s ∧ s.tc.dataReady = false) ∧
    (let s := inFlight (.receiveFrame 0 50) 0 (withFlags false true false false r)
     atPhase (.receiveFrame 0 50) 0 s ∧ s.tc.dataReady = true) ∧
    atPhase (.receiveFrame 0 50) 1 (inFlight (.receiveFrame 0 50) 1 r) ∧
    atPhase (.receiveFrame 0 50) 2 (inFlight (.receiveFrame 0 50) 2 r) ∧
    (let s := inFlight (.receiveFrame 0 50) 3 r
     atPhase (.receiveFrame 0 50) 3 s ∧ pendingCount s.bt < s.cfg.btQueueDepth) ∧
    atPhase (.receiveFrame 0 50) 4 (inFlight (.receiveFrame 0 50) 4 r) ∧
    atPhase (.receiveFrame 0 50) 5 (inFlight (.receiveFrame 0 50) 5 r) := by decide

theorem witness_ReceiveFrameChangesOnlySubmissionAndReady :
    (look (fun t => t.busy) (exec (.receiveFrame 0 50) (inFlight (.receiveFrame 0 50) 5 r))).isSome = true := by
  decide

/-- A captured frame of two bytes, A1 A2, at the capture buffer. -/
theorem witness_CapturedFrameIsDelivered :
    let s := scheduled (.issue (encode (.receiveFrame 0x10000200 2)) ::
        (List.replicate 4 Move.engine ++ (Move.bulk .start :: (copyMoves 2 ++ (Move.engine :: Move.engine :: [Move.engine])))))
      { withFlags false true false false (State.resetWith small) with
        mem := [(0x20002000, 0xA1), (0x20002001, 0xA2)] }
    admitted s.cfg = true ∧ Memory.wf s.mem ∧ s.busy = false ∧ s.tc.dataReady = true ∧ s.bt.active = none ∧
      s.bt.queue = [] ∧ s.cfg.maxPacketLen = 2 ∧
      transferAllowed s.cfg ⟨s.cfg.captureAddr, 0x10000200, s.cfg.maxPacketLen⟩ = true := by decide

theorem witness_SentFrameIsHandedOverInOrder :
    let x : Transfer := ⟨0x10000100, 0x20000018, 2⟩
    let s := scheduled (.bulk .start :: (copyMoves 2 ++ [.engine]))
      { r with bt := { r.bt with done := false, queue := [x] } }
    admitted s.cfg = true ∧ s.bt.active = none ∧ s.bt.queue = [x] ∧ x.dst = regAddr s.cfg .axisStatus ∧
      transferAllowed s.cfg x = true := by decide

/-- A copy of two bytes. -/
def copy2 : Transfer := ⟨0x20002000, 0x10000200, 2⟩

/-- A send of two bytes. -/
def send2 : Transfer := ⟨0x10000100, 0x20000018, 2⟩

/-- BULK with the copy and the send queued, the copy first. -/
def queued2 : Bt := { r.bt with done := false, queue := [copy2, send2] }

theorem witness_BulkMovesOneByteAtATime :
    Memory.wf r.mem ∧ (queued2.queue = copy2 :: [send2] ∧ queued2.active = none) ∧
    (r.bt.queue = [] ∧ r.bt.active = none) ∧
    copy2.dst ≠ r.cfg.tcBase + r.cfg.off.axisStatus ∧ send2.dst = r.cfg.tcBase + r.cfg.off.axisStatus ∧
    (∃ c ∈ [ByteState.waiting, .held 0xA2].set 1 .done, c ≠ .done) ∧
    (∀ c ∈ [ByteState.held 0xA1, .done].set 0 .done, c = .done) := by decide

/-- R241: a copy reads its second byte first and a send does not; a byte is read once; a send hands its second byte over
only after the first. -/
theorem test_bulk_order :
    goesOn (bulkMove (.read 1) { r with bt := { r.bt with active := some ⟨copy2, [.waiting, .waiting]⟩ } }) ∧
    ¬ goesOn (bulkMove (.read 1) { r with bt := { r.bt with active := some ⟨send2, [.waiting, .waiting]⟩ } }) ∧
    ¬ goesOn (bulkMove (.read 1) { r with bt := { r.bt with active := some ⟨copy2, [.waiting, .held 7]⟩ } }) ∧
    goesOn (bulkMove (.write 1) { r with bt := { r.bt with active := some ⟨send2, [.done, .held 7]⟩ } }) ∧
    ¬ goesOn (bulkMove (.write 1) { r with bt := { r.bt with active := some ⟨send2, [.held 6, .held 7]⟩ } }) := by
  decide

/-- A state with a transfer of no byte submitted, at LINE's turn; and a SEND_FRAME of 0 and of MAX_PACKET_LEN + 1 bytes. -/
theorem witness_TransferOutsideTheContractEndsTheRun :
    (let x : Transfer := ⟨0x10000100, 0x20000018, 0⟩
     let s := scheduled [.line (.ready .frame)] { r with bt := { r.bt with done := false, queue := [x] } }
     admitted s.cfg = true ∧ x ∈ s.bt.queue ∧ x.len = 0 ∧ step s = .refused .transferOutsideContract) ∧
    (let x : Transfer := ⟨0x10000100, 0x20000018, 51⟩
     let s := scheduled [.bulk (.read 0)]
       { r with bt := { r.bt with done := false, active := some ⟨x, List.replicate 51 .waiting⟩ } }
     admitted s.cfg = true ∧ (∃ a ∈ s.bt.active, a.xfer = x) ∧ step s = .refused .transferOutsideContract) ∧
    r.busy = false ∧ r.tc.sending = false ∧ pendingCount r.bt < r.cfg.btQueueDepth ∧
    r.cfg.maxPacketLen.toNat < (51 : BitVec 16).toNat := by
  exact ⟨⟨by decide, by decide, rfl, rfl⟩, ⟨by decide, ⟨_, rfl, rfl⟩, rfl⟩, by decide⟩

theorem inv_reset : MachineInv State.reset :=
  ⟨⟨List.Pairwise.nil, by simp [State.reset, State.resetWith]⟩, rfl,
    by decide, by decide, by simp [State.reset, State.resetWith]⟩

/-! Three infinite runs: the first moves of each are given, and after them ENGINE's turn comes for ever. -/

/-- The moves: those listed, then ENGINE's. -/
def movesOf (ms : List Move) (n : Nat) : Move := (ms[n]?).getD .engine

/-- The states of the run that makes them. -/
def statesOf (ms : List Move) (s : State) : Nat → State
  | 0 => s
  | n + 1 =>
    match turnOf (movesOf ms n) (statesOf ms s n) with
    | .next t => t
    | .fault _ => statesOf ms s n
    | .refused _ => statesOf ms s n

theorem movesOf_after {ms : List Move} {n : Nat} (h : ms.length ≤ n) : movesOf ms n = .engine := by
  simp [movesOf, h]

theorem engineGoesOn_movesOf (ms : List Move) : EngineGoesOn (movesOf ms) :=
  fun n => ⟨n + ms.length, by omega, movesOf_after (by omega)⟩

theorem noReset_movesOf {ms : List Move} (h : .reset ∉ ms) (n : Nat) : NoResetFrom n (movesOf ms) := by
  intro m _
  unfold movesOf
  cases hm : ms[m]? with
  | none => simp
  | some x => exact fun hx => h (by rw [Option.getD_some] at hx; exact hx ▸ List.mem_of_getElem? hm)

theorem statesOf_succ {ms : List Move} {s : State} {n : Nat}
    (h : goesOn (turnOf (movesOf ms n) (statesOf ms s n))) :
    turnOf (movesOf ms n) (statesOf ms s n) = .next (statesOf ms s (n + 1)) := by
  cases ht : turnOf (movesOf ms n) (statesOf ms s n) with
  | next t => simp only [statesOf, ht]
  | fault f => rw [ht] at h; cases h
  | refused f => rw [ht] at h; cases h

/-- With no command in flight ENGINE's turn changes nothing. -/
theorem turnOf_engine_idle {s : State} (ha : admitted s.cfg = true) (hp : pendingAllowed s = true)
    (hb : s.busy = false) : turnOf .engine s = .next s := by
  rw [turnOf_eq ha hp]
  simp [takeMove, engineTurn, hb]

/-- Once the listed moves are made and no command is in flight, the run stays where it is. -/
theorem statesOf_after {ms : List Move} {s : State} (ha : admitted (statesOf ms s ms.length).cfg = true)
    (hp : pendingAllowed (statesOf ms s ms.length) = true) (hb : (statesOf ms s ms.length).busy = false) (k : Nat) :
    statesOf ms s (ms.length + k) = statesOf ms s ms.length := by
  induction k with
  | zero => rfl
  | succ k ih =>
    rw [← Nat.add_assoc, statesOf, movesOf_after (Nat.le_add_right _ _), ih, turnOf_engine_idle ha hp hb]

theorem infiniteRun_statesOf {ms : List Move} {s : State} (ha : admitted (statesOf ms s ms.length).cfg = true)
    (hp : pendingAllowed (statesOf ms s ms.length) = true) (hb : (statesOf ms s ms.length).busy = false)
    (h : ∀ n, n < ms.length → goesOn (turnOf (movesOf ms n) (statesOf ms s n))) :
    InfiniteRun (movesOf ms) (statesOf ms s) := by
  intro n
  rcases Nat.lt_or_ge n ms.length with hn | hn
  · exact statesOf_succ (h n hn)
  · obtain ⟨k, rfl⟩ := Nat.exists_eq_add_of_le hn
    rw [movesOf_after hn, Nat.add_assoc, statesOf_after ha hp hb, statesOf_after ha hp hb]
    exact turnOf_engine_idle ha hp hb

/-- The moves of a RECEIVE_FRAME of two bytes from its status read on: four accesses, BULK's copy, two accesses. -/
def copyTurns : List Move :=
  [.engine, .engine, .engine, .engine, .bulk .start, .bulk (.read 0), .bulk (.write 0), .bulk (.read 1),
   .bulk (.write 1), .engine, .engine]

/-- The run that makes them. -/
def copyRun : Nat → State :=
  statesOf copyTurns
    (inFlight (.receiveFrame 0x10000200 2) 0 (withFlags false true false false (State.resetWith small)))

theorem witness_BulkDutyEndsTheCopy :
    InfiniteRun (movesOf copyTurns) copyRun ∧ EngineGoesOn (movesOf copyTurns) ∧
      NoResetFrom 0 (movesOf copyTurns) ∧ BulkDuty copyRun ∧
      MachineInv (copyRun 0) ∧ atPhase (.receiveFrame 0x10000200 2) 0 (copyRun 0) ∧
      pendingCount (copyRun 0).bt = 0 := by
  refine ⟨infiniteRun_statesOf (by decide) (by decide) (by decide) (by decide), engineGoesOn_movesOf _,
    noReset_movesOf (by decide) 0, ?_, ⟨by decide, ?_, by decide, by decide, by decide⟩, by decide, by decide⟩
  · intro n x hx _
    have hhead : ∀ m, m < 12 → headTransfer (copyRun m).bt = none ∨
        m ≤ 8 ∧ headTransfer (copyRun m).bt = some ⟨0x20002000, 0x10000200, 2⟩ := by decide
    have hlast : headTransfer (copyRun 11).bt = none := by decide
    rcases Nat.lt_or_ge n 12 with hn | hn
    · rcases hhead n hn with h | ⟨h8, h⟩
      · rw [h] at hx; cases hx
      · rw [h] at hx; cases hx
        exact ⟨8, h8, by decide, by decide⟩
    · obtain ⟨k, rfl⟩ := Nat.exists_eq_add_of_le (show 11 ≤ n by omega)
      have hk : copyRun (11 + k) = copyRun 11 := statesOf_after (by decide) (by decide) (by decide) k
      rw [hk, hlast] at hx
      cases hx
  · exact ⟨by decide, by decide, by decide, ⟨_, rfl, rfl⟩, fun h => absurd h (by decide)⟩

/-- A BEGIN that waits for 5000 microseconds while CLOCK raises NOW to its top. -/
def beginRun : Nat → State :=
  statesOf (.clock (2 ^ 64 - 1) :: List.replicate 7 .engine) (inFlight (.beginInit 5) 1 (waiting 0 5000 0 r))

/-- NOW can show the end of every wait that ends below 2^64. -/
theorem waitFits_of_lt {s : State} (hd : s.scratch.t0.toNat + s.scratch.dly.toNat < 2 ^ 64)
    (hr : s.scratch.t0.toNat + responsePollBoundUs < 2 ^ 64) : waitFits s := by
  unfold waitFits
  split
  · trivial
  · split <;> (try trivial) <;> intro _ <;> assumption

theorem witness_ClockDutyEndsTheTimedCommands :
    let moves := movesOf (.clock (2 ^ 64 - 1) :: List.replicate 7 .engine)
    InfiniteRun moves beginRun ∧ EngineGoesOn moves ∧ NoResetFrom 0 moves ∧ ClockDuty beginRun ∧
      MachineInv (beginRun 0) ∧
      (∀ m, 0 ≤ m → (∀ k, 0 ≤ k → k ≤ m → (beginRun k).busy = true) → waitFits (beginRun m)) ∧
      (Instr.beginInit 5).op ∈ [Op.beginInit, .handleCollision, .receiveResponse] ∧
      (beginRun 0).busy = true ∧ (beginRun 0).latch = latchOf (.beginInit 5) := by
  have hidle : (beginRun 8).busy = false := by decide
  refine ⟨infiniteRun_statesOf (by decide) (by decide) (by decide) (by decide), engineGoesOn_movesOf _,
    noReset_movesOf (by decide) 0, ?_, ⟨by decide, ?_, by decide, by decide, by decide⟩, ?_, by decide, by decide,
    by decide⟩
  · intro n d hd
    have htop : (beginRun 8).now.toNat = 2 ^ 64 - 1 := by decide
    have hk : beginRun (8 + n) = beginRun 8 := statesOf_after (by decide) (by decide) (by decide) n
    exact ⟨8 + n, by omega, by rw [hk, htop]; omega⟩
  · exact ⟨by decide, by decide, by decide, ⟨_, rfl, rfl⟩, fun h => absurd h (by decide)⟩
  · intro m _ h
    have hm : m < 8 := by
      by_contra hm
      exact absurd (h 8 (Nat.zero_le _) (by omega)) (by rw [hidle]; decide)
    have hd : ∀ m, m < 8 → (beginRun m).scratch.t0.toNat + (beginRun m).scratch.dly.toNat < 2 ^ 64 ∧
        (beginRun m).scratch.t0.toNat + responsePollBoundUs < 2 ^ 64 := by decide
    exact waitFits_of_lt (hd m hm).1 (hd m hm).2

/-- A SEND_RESPONSE issued, its word sent, one read too early; LINE accepts the word; the next read sees it. -/
def responseTurns : List Move :=
  [.issue (encode (.sendResponse 6)), .engine, .engine, .line (.flags true false false 0), .engine]

/-- The run that makes them. -/
def responseRun : Nat → State := statesOf responseTurns r

theorem witness_SendResponseCompletesWithinTheBound :
    (admitted r.cfg = true ∧ r.busy = false) ∧
    InfiniteRun (movesOf responseTurns) responseRun ∧ EngineGoesOn (movesOf responseTurns) ∧
    (NoResetFrom 0 (movesOf responseTurns) ∧ MachineInv (responseRun 0) ∧ (responseRun 0).busy = false ∧
      movesOf responseTurns 0 = .issue (encode (.sendResponse 6))) ∧
    (NoResetFrom 1 (movesOf responseTurns) ∧ MachineInv (responseRun 1) ∧ (responseRun 1).busy = true ∧
      (responseRun 1).latch = latchOf (.sendResponse 6)) := by
  refine ⟨by decide, infiniteRun_statesOf (by decide) (by decide) (by decide) (by decide), engineGoesOn_movesOf _,
    ⟨noReset_movesOf (by decide) 0, inv_reset, by decide, by decide⟩,
    noReset_movesOf (by decide) 1, ⟨by decide, ?_, by decide, by decide, by decide⟩, by decide, by decide⟩
  exact ⟨by decide, by decide, by decide, ⟨_, rfl, rfl⟩, fun h => absurd h (by decide)⟩

/-- A run that is over and goes on for two steps. -/
theorem witness_OverRunShowsNothingMore :
    let s := scheduled [.clock 1, .engine] r
    runOver 2 s = true ∧ goesOn (stepN 2 s) ∧
    -- and one that is not: HOST still has a command to issue
    runOver 1 (scheduled [.issue 0x2000000000000000] r) = false := by decide

theorem witness_ResetInputClearsTheEngine :
    let s := scheduled [.reset] (inFlight (.sendFrame 0 8) 0 r)
    admitted s.cfg = true ∧ pendingAllowed s = true ∧ nextMove s = .reset := by decide

theorem witness_EveryStepKeepsTheInvariant :
    let s := scheduled [.issue 0x2000000000000000] r
    MachineInv s ∧ (look (fun t => t.busy) (step s)).isSome = true :=
  ⟨inv_reset, by decide⟩

theorem witness_EngineRaisesNothing :
    MachineInv r ∧ look (fun t => t.busy) (exec .getMaxAttempts r) = some false := ⟨inv_reset, by decide⟩

/-- Any step of any command but P0 of RECEIVE_RESPONSE, and the issue of a SEND_FRAME. -/
theorem witness_TimeoutIsComputedAndUsedOnce :
    r.busy = false ∧ r.cfg.responseOffset = 20 ∧ r.cfg.latency = 13 ∧
    (look (fun t => t.busy) (exec .receiveResponse (inFlight .receiveResponse 1 r))).isSome = true ∧
    (inFlight .receiveResponse 1 r).seq ≠ .phase .receiveResponse 0 := by decide

theorem witness_EngineNeverTouchesMemory :
    (look (fun t => t.busy) (exec (.sendFrame 0 8) (inFlight (.sendFrame 0 8) 3 r))).isSome = true := by decide

theorem witness_GhostBitsDecideNothing :
    (look (fun t => t.busy) (exec (.beginInit 5) (inFlight (.beginInit 5) 7 r))).isSome = true := by decide

theorem witness_TimeoutIsWrittenOnlyBySendFrame :
    look (fun t => decide (t.timeout ≠ r.timeout)) (step (r.withFetchWord 64 0x3000000810000100)) =
      some true := by decide

theorem witness_TimeNeverGoesBack :
    look (fun t => decide (t.now ≠ r.now)) (step (scheduled [.clock 1] r)) = some true := by decide

/-- Both ways DATA_READY falls. -/
theorem witness_DataReadyFallsOnlyByTheEngine :
    let s5 := scheduled [.engine] (inFlight (.receiveFrame 0 50) 5 (begun 1 (withFlags false true false false r)))
    let s8 := scheduled [.engine] (inFlight .receiveResponse 8 (begun 0 (withFlags false true false false r)))
    (s5.initDone = true ∧ s5.tc.enable.getLsbD 0 = true ∧ s5.tc.dataReady = true ∧
      look (fun t => t.tc.dataReady) (step s5) = some false) ∧
    (s8.initDone = true ∧ s8.tc.enable.getLsbD 0 = true ∧ s8.tc.dataReady = true ∧
      look (fun t => t.tc.dataReady) (step s8) = some false) := by
  decide

/-- Under the contract with capture off and a frame waiting; with capture on and none waiting, a frame of two bytes and the
capture buffer's last byte; a word and a byte in the transmit path; and no contract, as after reset or with ENABLE = 0. -/
theorem witness_LineKeepsItsContract :
    (let s := begun 0 (withFlags false true false false r)
     Memory.wf s.mem ∧ s.initDone = true ∧ s.tc.enable.getLsbD 0 = true ∧ goesOn (lineMove (.hear 6) s) ∧
      s.tc.dataReady = true ∧ s.tc.activateRx.getLsbD 0 = false) ∧
    (let s := { begun 1 r with line := ⟨[0x306, 0x402], [0xB1, 0xB2], [0xA1, 0xA2]⟩ }
     Memory.wf s.mem ∧ s.tc.activateRx.getLsbD 0 = true ∧ s.tc.dataReady = false ∧
      s.line.partialFrame.length ≤ s.cfg.maxPacketLen.toNat ∧ 49 < s.cfg.maxPacketLen.toNat ∧
      goesOn (lineMove .stageFrame s) ∧ s.line.partialFrame[1]? = some 0xA2 ∧
      s.line.txWords = 0x306 :: [0x402] ∧ s.line.txBytes = 0xB1 :: [0xB2] ∧
      (∀ k, k < s.cfg.maxPacketLen.toNat → (0x20002032 : BitVec 32) ≠ s.cfg.captureAddr + BitVec.ofNat 32 k)) ∧
    (r.initDone = false ∧ r.line.txWords = [] ∧ r.line.txBytes = []) ∧
    (let s := { begun 0 r with tc := { (begun 0 r).tc with enable := 0 } }
     s.initDone = true ∧ s.tc.enable.getLsbD 0 = false) := by
  decide

/-- R235 to R238: LINE's liberties, one move each; the byte staged is read back at its place. -/
theorem test_line_liberties :
    look (fun t => (t.tc.sendDone, t.tc.sending, t.tc.receiving, t.tc.dataReady))
      (lineMove (.flags true false true 0) (begun 0 (withFlags false true true false r))) =
        some (true, false, true, true) ∧
    look (fun t => (t.tc.rxData, t.tc.dataReady)) (lineMove (.response 6) (begun 0 r)) = some (6, false) ∧
    look (fun t => memRead 0x20002031 t) (lineMove (.stage 49 7) (begun 1 r)) = some 7 ∧
    look (fun t => t.line.txWords) (lineMove .sendWord { r with line := ⟨[0x306, 0x402], [], []⟩ }) = some [0x402] := by
  decide

/-- The byte just above the capture buffer of X1; and, refused, a byte of a register, the capture buffer's last byte, and the
last byte of the buffer of a RECEIVE_FRAME in flight. -/
theorem witness_HostWritesOneByteOfMemory :
    (let s := scheduled [.hostWrite 0x20002032 7] r
     admitted s.cfg = true ∧ pendingAllowed s = true ∧ Memory.wf s.mem ∧ nextMove s = .hostWrite 0x20002032 7 ∧
      s.busy = false ∧
      (∀ x ∈ allRegs, ∀ k, k < 4 → (0x20002032 : BitVec 32) ≠ regAddr s.cfg x + BitVec.ofNat 32 k) ∧
      (∀ k, k < s.cfg.maxPacketLen.toNat → (0x20002032 : BitVec 32) ≠ s.cfg.captureAddr + BitVec.ofNat 32 k)) ∧
    (let s := scheduled [.hostWrite 0x10000231 7] (inFlight (.receiveFrame 0x10000200 50) 4 r)
     admitted s.cfg = true ∧ pendingAllowed s = true ∧ Memory.wf s.mem ∧ nextMove s = .hostWrite 0x10000231 7 ∧
      s.busy = true ∧ s.latch = latchOf (.receiveFrame 0x10000200 50) ∧
      49 < (50 : BitVec 16).toNat ∧ (0x10000231 : BitVec 32) = 0x10000200 + BitVec.ofNat 32 49) ∧
    (0x2000001F : BitVec 32) = regAddr r.cfg .rxData + BitVec.ofNat 32 3 ∧
    (0x20002031 : BitVec 32) = r.cfg.captureAddr + BitVec.ofNat 32 49 := by
  decide

/-- A configuration for each constraint of the statement, just outside it. -/
theorem witness_UnadmittedConfigurationIsRefused :
    ¬ (1 ≤ ({ Config.x1 with maxPacketLen := 65535 } : Config).maxPacketLen.toNat ∧
      ({ Config.x1 with maxPacketLen := 65535 } : Config).maxPacketLen.toNat ≤ 65534) ∧
    ¬ 1 ≤ repDivisor { Config.x1 with bitSpacer := 0, bitWidth := 3 } ∧
    ¬ (50 * 1189 + 13) / repDivisor Config.x1 + 2 ≤ 255 ∧
    ¬ ({ Config.x1 with degree := 8 } : Config).degree ≤ 7 ∧
    ¬ 1 ≤ ({ Config.x1 with pollBound := 0 } : Config).pollBound ∧
    ¬ 1000000 ≤ ({ Config.x1 with clockHz := 999999 } : Config).clockHz ∧
    regAddr { Config.x1 with btBase := 0x20000000 } .activateRx =
      regAddr { Config.x1 with btBase := 0x20000000 } .btSrc ∧
    (regAddr { Config.x1 with tcBase := 0x20000001 } .activateRx).toNat % 4 ≠ 0 ∧
    regAddr { Config.x1 with captureAddr := 0x2000001F } .rxData + BitVec.ofNat 32 3 =
      0x2000001F + BitVec.ofNat 32 0 ∧
    (regOff oddOffsets .activateRx).toNat % 4 ≠ 0 ∧
    ¬ 2 ≤ ({ Config.x1 with btQueueDepth := 1 } : Config).btQueueDepth ∧
    ¬ (1 ≤ ({ Config.x1 with mode := 5 } : Config).mode ∧ ({ Config.x1 with mode := 5 } : Config).mode ≤ 4) := by
  decide

/-- Both refusals, the second with the queue just full; with one transfer fewer pending it is none. -/
theorem witness_CommandsAreRefusedExactlyByPortAndQueue :
    exec .canStart (inFlight .handleCollision 0 r) = .refused .commandInFlight ∧
    exec (.sendFrame 0 8) (inFlight (.sendFrame 0 8) 3
      { r with bt := { r.bt with done := false, queue := [⟨0, 0, 1⟩, ⟨0, 0, 2⟩] } }) =
        .refused .bulkQueueFull ∧
    goesOn (exec (.sendFrame 0 8) (inFlight (.sendFrame 0 8) 3
      { r with bt := { r.bt with done := false, queue := [⟨0, 0, 1⟩] } })) := ⟨rfl, rfl, by decide⟩

theorem witness_ControlGoesForwardButForTheLoops :
    atPhase .receiveResponse 7 (inFlight .receiveResponse 7 (waiting 6000 0 6999 r)) ∧
    (look (fun t => t.busy)
      (exec .receiveResponse (inFlight .receiveResponse 7 (waiting 6000 0 6999 r)))).isSome = true := by
  decide

/-- Each transition of the statement, from a state that meets its hypotheses. -/
theorem witness_ExchangePhasesFollowTheCommands :
    let issues := fun i => scheduled [.issue (encode i)] (begun 1 r)
    let runs := fun i p s => scheduled [.engine] (inFlight i p s)
    goesOn (step (issues .canStart)) ∧ goesOn (step (issues (.sendFrame 0x10000100 8))) ∧
    goesOn (step (issues .receiveResponse)) ∧ goesOn (step (issues (.sendResponse 6))) ∧
    goesOn (step (runs .canStart 0 (withFlags false false false true r))) ∧
    goesOn (step (runs .receiveResponse 9 r)) ∧ goesOn (step (runs .receiveResponse 10 r)) ∧
    goesOn (step (runs (.sendFrame 0x10000100 8) 3 r)) ∧ goesOn (step (runs (.beginInit 5) 7 r)) ∧
    goesOn (step (runs (.receiveFrame 0x10000200 50) 5 r)) ∧
    goesOn (step (runs (.receiveFrame 0x10000200 50) 0 r)) ∧
    look (fun t => t.busy) (step (runs (.sendResponse 6) 1 (begun 1 (withFlags true false false false r)))) =
      some false ∧
    goesOn (step (scheduled [.line (.ready .frame)] (begun 1 r))) ∧
    goesOn (step (scheduled [.line (.ready .response)] (begun 1 r))) ∧
    goesOn (step (scheduled [.line (.stage 0 7)] (begun 1 r))) ∧ goesOn (step (scheduled [.reset] r)) := by decide

/-- R50: an exchange of the sender's: CAN_START issued, free, a frame sent, TRANSMITTING kept through a further
CAN_START (R271). -/
theorem test_exchange_phases :
    exchangeAfter 8 (scheduled [.issue (encode .canStart), .engine, .issue (encode (.sendFrame 0x10000100 8)),
      .engine, .engine, .engine, .engine, .issue (encode .canStart)] r) exchangeAtReset =
        ⟨.transmitting, .unarmed, false⟩ ∧
    exchangeAfter 2 (scheduled [.issue (encode .canStart), .engine] (withFlags false false false true r))
      exchangeAtReset = ⟨.idle, .unarmed, false⟩ := by decide

/-- R50, R238: a frame staged and reported is captured; DATA_READY set for a response byte, or with nothing staged, is not. -/
theorem test_frame_captured :
    let armedIdle : Exchange := ⟨.idle, .idle, false⟩
    let heard := { begun 1 r with line := ⟨[], [], [0xA1, 0xA2]⟩ }
    (exchangeAfter 2 (scheduled [.line .stageFrame, .line (.ready .frame)] heard) armedIdle).receiver =
      .frameCaptured ∧
    (exchangeAfter 2 (scheduled [.line (.stage 0 7), .line (.ready .frame)] heard) armedIdle).receiver =
      .frameCaptured ∧
    (exchangeAfter 2 (scheduled [.line (.response 6), .line (.ready .response)] heard) armedIdle).receiver = .idle ∧
    (exchangeAfter 1 (scheduled [.line (.ready .frame)] heard) armedIdle).receiver = .idle := by decide

/-- R242, R73: HOST may not write the buffer of a RECEIVE_FRAME in flight (10000200 to 10000231), and may write beside it,
into the buffer of a SEND_FRAME, and into the buffer once the command is done. -/
theorem test_host_write_buffers :
    let receiving := inFlight (.receiveFrame 0x10000200 50) 4 r
    ¬ goesOn (hostWriteMove 0x10000200 7 receiving) ∧
    ¬ goesOn (hostWriteMove 0x10000231 7 receiving) ∧
    look (memRead 0x10000232) (hostWriteMove 0x10000232 7 receiving) = some 7 ∧
    look (memRead 0x100001FF) (hostWriteMove 0x100001FF 7 receiving) = some 7 ∧
    look (memRead 0x10000200) (hostWriteMove 0x10000200 7 (inFlight (.sendFrame 0x10000200 50) 0 r)) = some 7 ∧
    look (memRead 0x10000200) (hostWriteMove 0x10000200 7 { receiving with busy := false, seq := .idle }) = some 7 := by
  decide

end Sys2Proof.Tests
end

section
/-! PROOFS. The family 00_scope: a step is the next move, which configurations a step refuses, and when a run is over
(00_scope.md R8, R13, R14). -/

/-! ### A step is the next move (R13) -/

namespace Sys2Proof

/-- The word of a command decodes to the command (30_encoding.md R102, R103). -/
theorem decode_encode (i : Instr) : decode (encode i) = .ok i := by
  have hop : fieldOp (encode i) = i.op.number := by
    rw [fieldOp, encode, BitVec.extractLsb'_append_eq_of_le (by decide)]
    exact BitVec.extractLsb'_append_eq_left
  have hrsv : fieldRsv (encode i) = 0 := by
    rw [fieldRsv, encode, BitVec.extractLsb'_append_eq_of_le (by decide)]
    exact BitVec.extractLsb'_append_eq_right
  have ha1 : fieldA1 (encode i) = i.a1 := by
    rw [fieldA1, encode, BitVec.extractLsb'_append_eq_of_add_le (by decide)]
    exact BitVec.extractLsb'_append_eq_left
  have ha0 : fieldA0 (encode i) = i.a0 := by
    rw [fieldA0, encode, BitVec.extractLsb'_append_eq_of_add_le (by decide)]
    exact BitVec.extractLsb'_append_eq_right
  rw [decode, if_pos hrsv, hop, ha1, ha0, decodeFields_of_fields]

end Sys2Proof

namespace Sys2Proof.Machine

/-- ENGINE's turn while a command is in flight is `exec` of that command (10_state.md R25). -/
theorem engineTurn_of_latch {i : Instr} {s : State} (hb : s.busy = true) (hl : s.latch = latchOf i) :
    engineTurn s = exec i s := by
  simp only [engineTurn, hb, hl, latchOf, decodeFields_of_fields, if_true]

/-- A word that is a command, presented while BUSY = 0, is executed (10_state.md R27). -/
theorem issueTurn_of_decode {w : DWord} {i : Instr} {s : State} (hb : s.busy = false) (hd : decode w = .ok i) :
    issueTurn w s = exec i s := by
  simp [issueTurn, hb, hd]

/-- The step of a state on whose port the word of a command was placed is the command's issue, from the engine idle. -/
theorem step_withFetchWord {s : State} (i : Instr) (ha : admitted s.cfg = true) (hp : pendingAllowed s = true) :
    step (s.withFetchWord 64 (encode i).toNat) = exec i { s with busy := false, seq := .idle } := by
  have hw : s.withFetchWord 64 (encode i).toNat = placeCommand (encode i) s := by
    rw [State.withFetchWord, Nat.mod_eq_of_lt (encode i).isLt, BitVec.ofNat_toNat, BitVec.setWidth_eq]
  rw [hw, step_eq_takeMove (s := placeCommand (encode i) s) ha hp]
  exact issueTurn_of_decode rfl (decode_encode i)

/-- Settles O5: each turn is the move of its agent, on the state with the move taken off. -/
theorem stepRunsTheDecodedCommand : Obligations.StepRunsTheDecodedCommand := by
  intro s i ha hp
  have hstep := step_eq_takeMove ha hp
  refine ⟨fun w hm hb hd => ?_, fun hm hb hl => ?_, fun m hm => ?_, fun m hm => ?_, fun d hm => ?_,
    fun a b hm => ?_, step_withFetchWord i ha hp⟩ <;> rw [hstep, hm]
  · exact issueTurn_of_decode (by rwa [popMove_busy]) hd
  · exact engineTurn_of_latch (by rwa [popMove_busy]) (by rwa [popMove_latch])
  all_goals rfl

/-! ### Configurations that are not admitted (R8) -/

/-- A range of at most 2^32 bytes meets a register exactly when it has one of the register's four bytes. -/
theorem meetsRegister_iff (c : Config) {base : BitVec 32} {len : Nat} (hl : len ≤ 2 ^ 32) (r : Reg) :
    meetsRegister c base len r = true ↔ rangesMeet (regAddr c r) 4 base len := by
  simp only [meetsRegister, Bool.or_eq_true, inRange_iff hl]
  constructor
  · rintro (((⟨j, hj, h⟩ | ⟨j, hj, h⟩) | ⟨j, hj, h⟩) | ⟨j, hj, h⟩)
    · exact ⟨0, j, by decide, hj, by simpa using h⟩
    · exact ⟨1, j, by decide, hj, h⟩
    · exact ⟨2, j, by decide, hj, h⟩
    · exact ⟨3, j, by decide, hj, h⟩
  · rintro ⟨k, j, hk, hj, h⟩
    interval_cases k
    · exact .inl (.inl (.inl ⟨j, hj, by simpa using h⟩))
    · exact .inl (.inl (.inr ⟨j, hj, h⟩))
    · exact .inl (.inr ⟨j, hj, h⟩)
    · exact .inr ⟨j, hj, h⟩

/-- A range meets the registers exactly when it has a byte of one of them. -/
theorem meetsRegisters_iff (c : Config) {base : BitVec 32} {len : Nat} (hl : len ≤ 2 ^ 32) :
    meetsRegisters c base len = true ↔ ∃ r ∈ allRegs, rangesMeet (regAddr c r) 4 base len := by
  simp only [meetsRegisters, List.any_eq_true, meetsRegister_iff c hl]

/-- Under a configuration that is not admitted every step is refused. -/
theorem step_not_admitted {s : State} (h : ¬ admitted s.cfg = true) : step s = .refused .configNotAdmitted := by
  rw [step_eq_turnOf, turnOf, popMove_cfg, if_neg h]

/-- Settles O57: an admitted configuration breaks no constraint of R8 and R7. -/
theorem unadmittedConfigurationIsRefused : Obligations.UnadmittedConfigurationIsRefused := by
  intro s hbroken
  refine step_not_admitted fun ha => ?_
  obtain ⟨hmode, hmode', hlen, hlen', hdiv, hrep, hdegree, hpoll, hclock, hdistinct, hoff, haddr, hcapture, hdepth, -, -⟩ :=
    (admitted_iff s.cfg).1 ha
  simp only [List.all_eq_true, beq_iff_eq] at hoff haddr
  rcases hbroken with h | h | h | h | h | h | ⟨r, hr, r', hr', hne, h⟩ | ⟨r, hr, h⟩ | ⟨r, hr, h⟩ | ⟨r, hr, h⟩ | h | h
  · exact h ⟨hlen, hlen'⟩
  · exact h hdiv
  · exact h hrep
  · exact h hdegree
  · exact h hpoll
  · exact h hclock
  · exact hne (List.inj_on_of_nodup_map hdistinct hr hr' h)
  · exact h (haddr r hr)
  · have hmeets := (meetsRegisters_iff s.cfg (by omega)).2 ⟨r, hr, h⟩
    exact Bool.false_ne_true (hcapture.symm.trans hmeets)
  · exact h (hoff r hr)
  · exact h hdepth
  · exact h ⟨hmode, hmode'⟩

/-! ### A run that is over (R14) -/

/-- From `s` to `t` the run has shown nothing but resets; without one TIMEOUT, RES and RES_VALID stand. -/
def ShowsOnlyResets (s t : State) : Prop :=
  ∃ resets, t.trace = List.replicate resets .reset ++ s.trace ∧
    (resets = 0 → t.timeout = s.timeout ∧ t.res = s.res ∧ t.resValid = s.resValid)

theorem ShowsOnlyResets.refl (s : State) : ShowsOnlyResets s s := ⟨0, rfl, fun _ => ⟨rfl, rfl, rfl⟩⟩

theorem ShowsOnlyResets.trans {s t u : State} (hst : ShowsOnlyResets s t) (htu : ShowsOnlyResets t u) :
    ShowsOnlyResets s u := by
  obtain ⟨m, htrace, hkept⟩ := hst
  obtain ⟨n, htrace', hkept'⟩ := htu
  refine ⟨n + m, by rw [htrace', htrace, ← List.append_assoc, List.replicate_append_replicate], fun h => ?_⟩
  obtain ⟨ht, hr, hv⟩ := hkept (by omega)
  obtain ⟨ht', hr', hv'⟩ := hkept' (by omega)
  exact ⟨ht'.trans ht, hr'.trans hr, hv'.trans hv⟩

/-- A step that leaves the record, TIMEOUT, RES and RES_VALID as they were shows nothing. -/
theorem ShowsOnlyResets.of_eq {s t : State} (htrace : t.trace = s.trace) (htimeout : t.timeout = s.timeout)
    (hres : t.res = s.res) (hvalid : t.resValid = s.resValid) : ShowsOnlyResets s t :=
  ⟨0, htrace, fun _ => ⟨htimeout, hres, hvalid⟩⟩

theorem pendingCount_eq_zero {bt : Bt} : pendingCount bt = 0 ↔ bt.active = none ∧ bt.queue = [] := by
  cases h : bt.active <;> simp [pendingCount, h]

/-- With nothing pending BULK has no move but the noise of its meaningless bits, so nothing comes to be pending. -/
theorem bulkMove_nothing_pending {m : BulkMove} {s t : State} (h : bulkMove m s = .next t)
    (hp : pendingCount s.bt = 0) : pendingCount t.bt = 0 := by
  obtain ⟨hactive, hqueue⟩ := pendingCount_eq_zero.1 hp
  cases m with
  | start => simp [bulkMove, bulkStart, hactive, hqueue] at h
  | read i => simp [bulkMove, bulkRead, hactive] at h
  | write i => simp [bulkMove, bulkWrite, hactive] at h
  | noise v d => cases h; exact hp

/-- A move other than HOST's issue, made with the engine idle and nothing pending, leaves both so and shows at most a
reset. -/
theorem takeMove_over {m : Move} {s t : State} (h : takeMove m s = .next t) (hm : isIssue m = false)
    (hb : s.busy = false) (hp : pendingCount s.bt = 0) :
    t.busy = false ∧ pendingCount t.bt = 0 ∧ ShowsOnlyResets s t := by
  obtain ⟨i, -, ⟨-, hb', -⟩ | ⟨w, rfl, -, -⟩⟩ | ⟨rfl, -⟩ | ⟨w, e, rfl, -⟩ | ⟨a, b, -, h⟩ | ⟨l, -, h⟩ | ⟨b, -, h⟩ |
    ⟨d, -, h⟩ | ⟨-, rfl⟩ := takeMove_cases h
  · exact absurd (hb.symm.trans hb') Bool.false_ne_true
  · cases hm
  · exact ⟨hb, hp, .refl _⟩
  · cases hm
  · rw [hostWriteMove_next h]
    exact ⟨hb, hp, .of_eq rfl rfl rfl rfl⟩
  · rw [lineMove_frame h]
    exact ⟨hb, hp, .of_eq rfl rfl rfl rfl⟩
  · have hp' := bulkMove_nothing_pending h hp
    rw [bulkMove_frame h]
    exact ⟨hb, hp', .of_eq rfl rfl rfl rfl⟩
  · unfold clockMove at h
    split at h <;> cases h
    exact ⟨hb, hp, .of_eq rfl rfl rfl rfl⟩
  · exact ⟨rfl, hp, 1, rfl, fun h => absurd h Nat.one_ne_zero⟩

theorem runOver_iff (n : Nat) (s : State) :
    runOver n s = true ↔ hostSilent n s = true ∧ s.busy = false ∧ pendingCount s.bt = 0 := by
  simp only [runOver, Bool.and_eq_true, Bool.not_eq_true', beq_iff_eq, and_assoc]

/-- The next step is no issue, and HOST stays silent in the steps after it. -/
theorem hostSilent_step {n : Nat} {s t : State} (h : hostSilent (n + 1) s = true) (hs : step s = .next t) :
    isIssue (nextMove s) = false ∧ hostSilent n t = true := by
  simpa only [hostSilent, hs, Bool.and_eq_true, Bool.not_eq_true'] using h

/-- The first step of a run that is over answers a state from which the rest of it is over, and shows at most a reset. -/
theorem runOver_step {n : Nat} {s t : State} (h : runOver (n + 1) s = true) (hs : step s = .next t) :
    runOver n t = true ∧ ShowsOnlyResets s t := by
  obtain ⟨hsilent, hb, hp⟩ := (runOver_iff _ s).1 h
  obtain ⟨hm, hsilent'⟩ := hostSilent_step hsilent hs
  obtain ⟨-, -, hmove⟩ := step_next hs
  obtain ⟨hb', hp', htrace⟩ := takeMove_over hmove hm (by rwa [popMove_busy]) (by rwa [popMove_bt])
  have hpop : ShowsOnlyResets s (popMove s) := .of_eq (by simp) (by simp) (by simp) (by simp)
  exact ⟨(runOver_iff n t).2 ⟨hsilent', hb', hp'⟩, hpop.trans htrace⟩

/-- `n + 1` steps that answer a next state are one step and `n` more. -/
theorem stepN_succ_next {n : Nat} {s t : State} (h : stepN (n + 1) s = .next t) :
    ∃ u, step s = .next u ∧ stepN n u = .next t := by
  simp only [stepN, Host.Core.run] at h
  split at h
  · next u hu => exact ⟨u, hu, h⟩
  · cases h
  · cases h

/-- Settles O51, by induction on the number of steps: each shows at most a reset and leaves the run over. -/
theorem overRunShowsNothingMore : Obligations.OverRunShowsNothingMore := by
  intro n
  induction n with
  | zero =>
    intro s t hover hrun
    obtain ⟨-, hb, hp⟩ := (runOver_iff 0 s).1 hover
    cases hrun
    exact ⟨hb, hp, ShowsOnlyResets.refl s⟩
  | succ n ih =>
    intro s t hover hrun
    obtain ⟨u, hstep, hrest⟩ := stepN_succ_next hrun
    obtain ⟨hover', hshown⟩ := runOver_step hover hstep
    obtain ⟨hb, hp, hshown'⟩ := ih u t hover' hrest
    exact ⟨hb, hp, hshown.trans hshown'⟩

end Sys2Proof.Machine
end

section
/-! PROOFS. The family 10_state: what an issue and an access of ENGINE can answer, the invariant that every step keeps,
TIMEOUT and NOW, control inside a command, and the exchange state machines (10_state.md R21 to R51). -/

namespace Sys2Proof.Machine

/-! ### What an access of ENGINE can do (10_state.md R13, R25, R51) -/

/-- Every next state the result answers has the property. -/
def Answers (P : State → Prop) (o : Result) : Prop := ∀ t, o = .next t → P t

theorem Answers.next {P : State → Prop} {t : State} (h : P t) : Answers P (.next t) := by
  intro t' ht'
  cases ht'
  exact h

theorem Answers.fault {P : State → Prop} {r : Fault} : Answers P (.fault r) := by
  intro t ht
  cases ht

theorem Answers.nextIte {P : State → Prop} {c : Prop} [Decidable c] {t e : State} (ht : c → P t) (he : ¬c → P e) :
    Answers P (.next (if c then t else e)) :=
  .next (iteInduction (motive := P) ht he)

theorem Answers.submitThen {P : State → Prop} {v : BitVec 32} {k : State → State} {s : State}
    (h : pendingCount s.bt < s.cfg.btQueueDepth → P (k (regWrite .len v s))) :
    Answers P (submitThen v k s) := by
  intro t ht
  obtain ⟨hroom, rfl⟩ := submitThen_next ht
  exact h hroom

/-- What an access does before it moves SEQ on: it changes the scratch registers, the ghost bits, the facade, the transmit
path and the record, and it submits at most one transfer, for which there is room. -/
structure AccessEffect (s u : State) : Prop where
  frame : u = { s with
    scratch := u.scratch, initDone := u.initDone, pendingSend := u.pendingSend, tc := u.tc, bt := u.bt, line := u.line,
    fresh := u.fresh, trace := u.trace }
  active : u.bt.active = s.bt.active
  queue : (u.bt.done = s.bt.done ∧ u.bt.queue = s.bt.queue) ∨
    (pendingCount s.bt < s.cfg.btQueueDepth ∧ u.bt.done = false ∧ ∃ x, u.bt.queue = s.bt.queue ++ [x])

/-- An access that submits nothing. -/
theorem AccessEffect.quiet {s u : State}
    (frame : u = { s with
      scratch := u.scratch, initDone := u.initDone, pendingSend := u.pendingSend, tc := u.tc, bt := u.bt, line := u.line,
      fresh := u.fresh, trace := u.trace } := by rfl)
    (bulk : u.bt.active = s.bt.active ∧ u.bt.done = s.bt.done ∧ u.bt.queue = s.bt.queue := by exact ⟨rfl, rfl, rfl⟩) :
    AccessEffect s u :=
  ⟨frame, bulk.1, .inl bulk.2⟩

theorem AccessEffect.cfg {s u : State} (h : AccessEffect s u) : u.cfg = s.cfg := (congrArg State.cfg h.frame :)
theorem AccessEffect.timeout {s u : State} (h : AccessEffect s u) : u.timeout = s.timeout :=
  (congrArg State.timeout h.frame :)
theorem AccessEffect.latch {s u : State} (h : AccessEffect s u) : u.latch = s.latch := (congrArg State.latch h.frame :)
theorem AccessEffect.busy {s u : State} (h : AccessEffect s u) : u.busy = s.busy := (congrArg State.busy h.frame :)
theorem AccessEffect.resValid {s u : State} (h : AccessEffect s u) : u.resValid = s.resValid :=
  (congrArg State.resValid h.frame :)
theorem AccessEffect.mem {s u : State} (h : AccessEffect s u) : u.mem = s.mem := (congrArg State.mem h.frame :)
theorem AccessEffect.now {s u : State} (h : AccessEffect s u) : u.now = s.now := (congrArg State.now h.frame :)
theorem AccessEffect.schedule {s u : State} (h : AccessEffect s u) : u.schedule = s.schedule :=
  (congrArg State.schedule h.frame :)

/-- Everything an access at phase `p` of operation `op` can answer. It goes to a phase of the same operation, later or by a
loop of R51; where that phase is in a bounded poll, CNT starts at 0, or the phase repeats with CNT one higher and the bound
not met. Or it completes. -/
inductive AccessNext (op : Op) (p : Nat) (s : State) : State → Prop
  | goes {u : State} (q : Fin 16) (effect : AccessEffect s u)
      (poll : inBoundedPoll (.phase op q) = true →
        u.scratch.cnt = 0 ∨ (p = q.val ∧ u.scratch.cnt = s.scratch.cnt + 1 ∧ u.scratch.cnt ≠ s.cfg.pollBound) := by
          exact nofun)
      (inside : q.val < phaseCount op := by decide)
      (forward : p < q.val ∨ (op, p, q.val) ∈ loops := by decide) : AccessNext op p s (goTo op q u)
  | ends {u : State} (v : BitVec 64) (effect : AccessEffect s u) : AccessNext op p s (complete v u)

/-- A poll that repeats has counted its read, and its bound is not met. -/
theorem poll_repeats {s : State} {c : Bool} (h : ¬(c || boundMet (pollStatus s)) = true) :
    (pollStatus s).scratch.cnt = s.scratch.cnt + 1 ∧ (pollStatus s).scratch.cnt ≠ s.cfg.pollBound := by
  rw [Bool.or_eq_true, not_or] at h
  obtain ⟨-, hbound⟩ := h
  exact ⟨rfl, by simpa [boundMet] using hbound⟩

theorem beginAccess_answers (s : State) : ∀ p, Answers (AccessNext .beginInit p s) (beginAccess p s)
  | 0 => .next (.goes 1 .quiet)
  | 1 => .nextIte (fun _ => .goes 2 .quiet) (fun _ => .goes 1 .quiet)
  | 2 => .next (.goes 3 .quiet)
  | 3 => .next (.goes 4 .quiet)
  | 4 => .next (.goes 5 .quiet)
  | 5 => .next (.goes 6 .quiet)
  | 6 => .next (.goes 7 .quiet)
  | 7 => .next (.ends 1 .quiet)
  | _ + 8 => .fault

theorem canStartAccess_answers (s : State) : ∀ p, Answers (AccessNext .canStart p s) (canStartAccess p s)
  | 0 => .next (.ends _ .quiet)
  | _ + 1 => .fault

theorem sendFrameAccess_answers (b : BitVec 32) (l : BitVec 16) (s : State) :
    ∀ p, Answers (AccessNext .sendFrame p s) (sendFrameAccess b l p s)
  | 0 => .nextIte (fun _ => .goes 0 .quiet) (fun _ => .goes 1 .quiet)
  | 1 => .next (.goes 2 .quiet)
  | 2 => .next (.goes 3 .quiet)
  | 3 => .submitThen (k := fun t => complete 0 { t with pendingSend := true }) fun hroom =>
    .ends 0 ⟨rfl, rfl, .inr ⟨hroom, rfl, _, rfl⟩⟩
  | _ + 4 => .fault

theorem receiveFrameAccess_answers (b : BitVec 32) (l : BitVec 16) (s : State) :
    ∀ p, Answers (AccessNext .receiveFrame p s) (receiveFrameAccess b l p s)
  | 0 => .nextIte (fun _ => .goes 1 .quiet) (fun _ => .ends _ .quiet)
  | 1 => .next (.goes 2 .quiet)
  | 2 => .next (.goes 3 .quiet)
  | 3 => .submitThen (k := goTo .receiveFrame 4) fun hroom => .goes 4 ⟨rfl, rfl, .inr ⟨hroom, rfl, _, rfl⟩⟩
  | 4 => .nextIte (fun _ => .goes 5 .quiet) (fun _ => .goes 4 .quiet)
  | 5 => .next (.ends _ .quiet)
  | _ + 6 => .fault

theorem receiveResponseAccess_answers (s : State) :
    ∀ p, Answers (AccessNext .receiveResponse p s) (receiveResponseAccess p s)
  | 0 => .next (.goes 1 .quiet)
  | 1 => .next (.goes 2 .quiet fun _ => .inl rfl)
  | 2 => .nextIte (fun _ => .goes 3 .quiet fun _ => .inl rfl)
    (fun h => .goes 2 .quiet fun _ => .inr ⟨rfl, poll_repeats h⟩)
  | 3 => .nextIte (fun _ => .goes 4 .quiet fun _ => .inl rfl)
    (fun h => .goes 3 .quiet fun _ => .inr ⟨rfl, poll_repeats h⟩)
  | 4 => .nextIte (fun _ => .goes 5 .quiet) (fun h => .goes 4 .quiet fun _ => .inr ⟨rfl, poll_repeats h⟩)
  | 5 => .next (.goes 6 .quiet)
  | 6 => .nextIte (fun _ => .goes 8 .quiet) (fun _ => .goes 7 .quiet)
  | 7 => .nextIte (fun _ => .goes 10 .quiet) (fun _ => .goes 6 .quiet)
  | 8 => .next (.goes 9 (.quiet (by rw [regRead_frame]; rfl) (by simp)))
  | 9 => .next (.ends _ .quiet)
  | 10 => .next (.ends _ .quiet)
  | _ + 11 => .fault

theorem sendResponseAccess_answers (v : BitVec 8) (s : State) :
    ∀ p, Answers (AccessNext .sendResponse p s) (sendResponseAccess v p s)
  | 0 => .next (.goes 1 .quiet fun _ => .inl rfl)
  | 1 => .nextIte (fun _ => .ends 0 .quiet) (fun h => .goes 1 .quiet fun _ => .inr ⟨rfl, poll_repeats h⟩)
  | _ + 2 => .fault

theorem handleCollisionAccess_answers (s : State) :
    ∀ p, Answers (AccessNext .handleCollision p s) (handleCollisionAccess p s)
  | 0 => .next (.goes 1 .quiet)
  | 1 => .next (.goes 2 .quiet)
  | 2 => .nextIte (fun _ => .ends 0 .quiet) (fun _ => .goes 2 .quiet)
  | _ + 3 => .fault

/-- What an access of any command can answer. -/
theorem accessOf_next {i : Instr} {p : Nat} {s t : State} (h : accessOf i p s = .next t) : AccessNext i.op p s t := by
  revert h
  cases i with
  | beginInit v => exact beginAccess_answers s p t
  | canStart => exact canStartAccess_answers s p t
  | sendFrame b l => exact sendFrameAccess_answers b l s p t
  | receiveResponse => exact receiveResponseAccess_answers s p t
  | receiveFrame b l => exact receiveFrameAccess_answers b l s p t
  | sendResponse v => exact sendResponseAccess_answers v s p t
  | handleCollision => exact handleCollisionAccess_answers s p t
  | backOff v => exact Answers.fault t
  | getMaxAttempts => exact Answers.fault t
  | getReceiveTime => exact Answers.fault t

/-! ### What the issue step can do (R27) -/

/-- The latch of a word that decodes holds the command. -/
theorem latchOfWord_of_decode {w : DWord} {i : Instr} (h : decode w = .ok i) : latchOfWord w = latchOf i := by
  unfold decode at h
  split at h
  · obtain ⟨hop, ha1, ha0⟩ := fields_of_decodeFields h
    simp only [latchOfWord, latchOf, hop, ha1, ha0]
  · cases h

theorem latch_issue (i : Instr) (s : State) : (issue i s).latch = latchOf i :=
  latchOfWord_of_decode (decode_encode i)

/-- What the issue step of a command leaves of the state `u` the issue made: it completes, or it stands at P0 with DLY set by
BEGIN, or TIMEOUT set by SEND_FRAME, at most. -/
inductive StartNext (i : Instr) (u : State) : State → Prop
  | ends (v : BitVec 64) : StartNext i u (complete v u)
  | goes (access : 0 < phaseCount i.op := by exact Nat.succ_pos _) : StartNext i u u
  | delays (d : BitVec 40) (access : 0 < phaseCount i.op := by exact Nat.succ_pos _) : StartNext i u (setDly d u)
  | sends (b : BitVec 32) (l : BitVec 16) (hi : i = .sendFrame b l) :
      StartNext i u { u with timeout := timeoutOf u.cfg l }

theorem startOf_answers (i : Instr) (u : State) : Answers (StartNext i u) (startOf i u) := by
  cases i with
  | beginInit v => exact .next (.delays _)
  | canStart => exact .next .goes
  | sendFrame b l => exact .next (.sends b l rfl)
  | receiveResponse => exact .next .goes
  | receiveFrame b l => exact .nextIte (fun _ => .goes) (fun _ => .ends _)
  | sendResponse v => exact .next .goes
  | handleCollision => exact .next .goes
  | backOff v => exact .next (.ends _)
  | getMaxAttempts => exact .next (.ends _)
  | getReceiveTime => exact .next (.ends _)

theorem startOf_next {i : Instr} {u t : State} (h : startOf i u = .next t) : StartNext i u t := startOf_answers i u t h

/-! ### The invariant's parts, move by move -/

/-- The sequencer's part speaks of nothing outside the engine. -/
theorem seqInv_of_eq {s t : State} (h : seqInv s) (hcfg : t.cfg = s.cfg) (hseq : t.seq = s.seq) (hbusy : t.busy = s.busy)
    (hvalid : t.resValid = s.resValid) (hlatch : t.latch = s.latch) (hscratch : t.scratch = s.scratch) : seqInv t := by
  simpa only [seqInv, hcfg, hseq, hbusy, hvalid, hlatch, hscratch] using h

theorem seqInv_of_idle {s : State} (hseq : s.seq = .idle) (hbusy : s.busy = false) : seqInv s := by
  simp only [seqInv, hseq, hbusy]

theorem seqInv_phase {s : State} {op : Op} {p : Fin 16} (hseq : s.seq = .phase op p) : seqInv s ↔
    s.busy = true ∧ s.resValid = false ∧ p.val < phaseCount op ∧ (∃ i : Instr, s.latch = latchOf i ∧ i.op = op) ∧
      (inBoundedPoll (.phase op p) = true → s.scratch.cnt < s.cfg.pollBound) := by
  simp only [seqInv, hseq]

/-- No operation starts in a bounded poll. -/
theorem inBoundedPoll_zero (op : Op) : inBoundedPoll (.phase op 0) = false := by
  cases op <;> rfl

/-- The issue step establishes the sequencer's part. -/
theorem StartNext.seqInv {i : Instr} {s t : State} (h : StartNext i (issue i s) t) : seqInv t := by
  have hissued (access : 0 < phaseCount i.op) : Machine.seqInv (issue i s) :=
    (seqInv_phase rfl).2 ⟨rfl, rfl, access, ⟨i, latch_issue i s, rfl⟩,
      fun hpoll => absurd hpoll (by simp [inBoundedPoll_zero])⟩
  cases h with
  | ends v => exact seqInv_of_idle rfl rfl
  | goes access => exact hissued access
  | delays d access => exact (seqInv_phase rfl).2 ((seqInv_phase rfl).1 (hissued access))
  | sends b l hi => exact seqInv_of_eq (hissued (by rw [hi]; exact Nat.succ_pos 3)) rfl rfl rfl rfl rfl rfl

/-- An access keeps the sequencer's part: it stays inside its operation and below the poll's bound, or ends the command. -/
theorem AccessNext.seqInv {op : Op} {p : Fin 16} {s t : State} (h : AccessNext op p s t) (ha : admitted s.cfg = true)
    (hseq : s.seq = .phase op p) (hs : seqInv s) : seqInv t := by
  obtain ⟨hbusy, hvalid, -, hlatch, hcnt⟩ := (seqInv_phase hseq).1 hs
  cases h with
  | ends v effect => exact seqInv_of_idle rfl rfl
  | @goes u q effect poll inside forward =>
    have hcfg := effect.cfg
    have hpollBound : 1 ≤ s.cfg.pollBound := by
      obtain ⟨-, -, -, -, -, -, -, hbound, -⟩ := (admitted_iff s.cfg).1 ha
      exact hbound
    refine (seqInv_phase rfl).2 ⟨?_, ?_, inside, ?_, fun hpoll => ?_⟩
    · exact effect.busy.trans hbusy
    · exact effect.resValid.trans hvalid
    · rwa [goTo_latch, effect.latch]
    · show u.scratch.cnt < u.cfg.pollBound
      rw [hcfg]
      obtain hzero | ⟨hpq, hone, hbelow⟩ := poll hpoll
      · omega
      · have := hcnt (Fin.ext hpq ▸ hpoll)
        omega

/-- BULK's part speaks of the pending transfers and BT.DONE[0] alone. -/
theorem bulkInv_of_eq {s t : State} (h : bulkInv s) (hcfg : t.cfg = s.cfg) (hdone : t.bt.done = s.bt.done)
    (hactive : t.bt.active = s.bt.active) (hqueue : t.bt.queue = s.bt.queue) : bulkInv t := by
  simpa only [bulkInv, pendingCount, hcfg, hdone, hactive, hqueue] using h

/-- An access keeps BULK's part: a submission clears BT.DONE[0] and finds room in the queue. -/
theorem AccessEffect.bulkInv {s u : State} (h : AccessEffect s u) (hs : bulkInv s) : bulkInv u := by
  have hcfg := h.cfg
  obtain ⟨hdone, hqueue⟩ | ⟨hroom, hdone, x, hqueue⟩ := h.queue
  · exact bulkInv_of_eq hs hcfg hdone h.active hqueue
  · obtain ⟨-, -, hactive⟩ := hs
    refine ⟨by simp [hdone, hqueue], ?_, by rwa [h.active]⟩
    rw [hcfg]
    simp only [pendingCount, h.active, hqueue, List.length_append, List.length_singleton] at hroom ⊢
    omega

/-- A pending transfer inside the contract has a byte. -/
theorem one_le_len_of_pendingAllowed {s : State} (hp : pendingAllowed s = true) {x : Transfer}
    (hx : x ∈ pendingTransfers s.bt) : 1 ≤ x.len.toNat :=
  ((transferAllowed_iff s.cfg x).1 (List.all_eq_true.1 hp x hx)).1

/-- BULK's write of byte `i` delivers the byte it holds and settles the transfer. -/
theorem bulkWrite_next {i : Nat} {s t : State} (h : bulkWrite i s = .next t) :
    ∃ a b, s.bt.active = some a ∧ a.bytes[i]? = some (.held b) ∧
      t = { deliver a.xfer i b s with bt := settle a.xfer (a.bytes.set i .done) s.bt } := by
  unfold bulkWrite at h
  split at h
  · next a hactive =>
    split at h
    · next b hb =>
      split at h <;> cases h
      exact ⟨a, b, hactive, hb, rfl⟩
    · cases h
  · cases h

/-- BULK's moves keep its part: the transfer it takes has a byte to do, and so has the one it does not finish. -/
theorem bulkInv_bulkMove {m : BulkMove} {s t : State} (h : bulkMove m s = .next t) (hp : pendingAllowed s = true)
    (hs : bulkInv s) : bulkInv t := by
  obtain ⟨hdone, hdepth, hbytes⟩ := hs
  cases m with
  | start =>
    simp only [bulkMove, bulkStart] at h
    split at h <;> cases h
    next x q hactive hqueue =>
    have hx : 1 ≤ x.len.toNat := one_le_len_of_pendingAllowed hp (by simp [pendingTransfers, hqueue])
    refine ⟨by simp [hdone, hqueue], by simpa [pendingCount, hactive, hqueue] using hdepth, ?_⟩
    rintro a ⟨⟩
    exact ⟨List.length_replicate, .waiting, List.mem_replicate.2 ⟨by omega, rfl⟩, nofun⟩
  | read i =>
    simp only [bulkMove, bulkRead] at h
    split at h
    · next a hactive =>
      split at h <;> cases h
      next hread =>
      refine ⟨by simp [hdone, hactive], by simpa [pendingCount, hactive] using hdepth, ?_⟩
      rintro a' ⟨⟩
      obtain ⟨hi, -⟩ := List.getElem?_eq_some_iff.1 hread.1
      exact ⟨by simpa using (hbytes a hactive).1, _, List.mem_set hi _, nofun⟩
    · cases h
  | write i =>
    have hcfg : t.cfg = s.cfg := (congrArg State.cfg (bulkMove_frame h) :)
    obtain ⟨a, b, hactive, -, ht⟩ := bulkWrite_next h
    have hbt : t.bt = settle a.xfer (a.bytes.set i .done) s.bt := by rw [ht]
    simp only [bulkInv, hcfg, hbt, settle]
    split
    · refine ⟨by simp, ?_, nofun⟩
      simp only [pendingCount, Option.isSome_none, Bool.toNat_false] at hdepth ⊢
      omega
    · next hleft =>
      refine ⟨by simp [hdone, hactive], by simpa [pendingCount, hactive] using hdepth, ?_⟩
      rintro a' ⟨⟩
      exact ⟨by simpa using (hbytes a hactive).1, by simpa using hleft⟩
  | noise v d =>
    cases h
    exact ⟨hdone, hdepth, hbytes⟩

/-! ### The canonical form of memory -/

/-- LINE's moves store bytes from some address on, if any. -/
theorem lineMove_mem {m : LineMove} {s t : State} (h : lineMove m s = .next t) :
    ∃ a bs, t.mem = (memWriteBytes a bs s).mem := by
  cases m with
  | stageFrame =>
    simp only [lineMove] at h
    split at h <;> cases h
    exact ⟨_, _, rfl⟩
  | stage i b =>
    simp only [lineMove] at h
    split at h <;> cases h
    exact ⟨_, [b], rfl⟩
  | flags | ready | response | hear | forget =>
    cases h
    exact ⟨0, [], rfl⟩
  | unready | sendWord | sendByte | config =>
    simp only [lineMove] at h
    split at h <;> cases h
    exact ⟨0, [], rfl⟩

/-- So do BULK's: one byte, where a transfer goes to memory. -/
theorem bulkMove_mem {m : BulkMove} {s t : State} (h : bulkMove m s = .next t) :
    ∃ a bs, t.mem = (memWriteBytes a bs s).mem := by
  cases m with
  | start =>
    simp only [bulkMove, bulkStart] at h
    split at h <;> cases h
    exact ⟨0, [], rfl⟩
  | read i =>
    simp only [bulkMove, bulkRead] at h
    split at h
    · split at h <;> cases h
      exact ⟨0, [], rfl⟩
    · cases h
  | write i =>
    obtain ⟨a, b, -, -, rfl⟩ := bulkWrite_next h
    unfold deliver
    split
    · exact ⟨0, [], rfl⟩
    · exact ⟨_, [b], rfl⟩
  | noise v d =>
    cases h
    exact ⟨0, [], rfl⟩

/-! ### Every move keeps the invariant -/

/-- What `exec` answers, by the issue or the access it makes. -/
theorem exec_next {i : Instr} {s t : State} (h : exec i s = .next t) :
    (s.busy = false ∧ StartNext i (issue i s) t) ∨
    (∃ p : Fin 16, atPhase i p s ∧ AccessNext i.op p s t) := by
  obtain ⟨hb, h⟩ | ⟨p, hb, hl, hs, h⟩ := exec_next_cases h
  · exact .inl ⟨hb, startOf_next h⟩
  · exact .inr ⟨p, ⟨hb, hl, hs⟩, accessOf_next h⟩

theorem StartNext.machineInv {i : Instr} {s t : State} (h : StartNext i (issue i s) t) (hs : MachineInv s) :
    MachineInv t := by
  obtain ⟨hmem, -, hbulk⟩ := hs
  have hengine := h.seqInv
  cases h <;> exact ⟨hmem, hengine, hbulk⟩

theorem AccessNext.machineInv {op : Op} {p : Fin 16} {s t : State} (h : AccessNext op p s t)
    (ha : admitted s.cfg = true) (hseq : s.seq = .phase op p) (hs : MachineInv s) : MachineInv t := by
  obtain ⟨hmem, hengine, hbulk⟩ := hs
  have hengine' := h.seqInv ha hseq hengine
  cases h with
  | goes q effect => exact ⟨effect.mem ▸ hmem, hengine', effect.bulkInv hbulk⟩
  | ends v effect => exact ⟨effect.mem ▸ hmem, hengine', effect.bulkInv hbulk⟩

/-- `exec` leaves everything outside the engine and the facade as it was. -/
theorem exec_outside {i : Instr} {s t : State} (h : exec i s = .next t) :
    t.mem = s.mem ∧ t.now = s.now ∧ t.cfg = s.cfg ∧ t.schedule = s.schedule := by
  obtain ⟨-, h⟩ | ⟨p, -, h⟩ := exec_next h
  · cases h <;> exact ⟨rfl, rfl, rfl, rfl⟩
  · cases h with
    | goes q effect => exact ⟨effect.mem, effect.now, effect.cfg, effect.schedule⟩
    | ends v effect => exact ⟨effect.mem, effect.now, effect.cfg, effect.schedule⟩

/-- Every move keeps the parameters. -/
theorem takeMove_cfg {m : Move} {s t : State} (h : takeMove m s = .next t) : t.cfg = s.cfg := by
  obtain ⟨i, h, -⟩ | ⟨rfl, -⟩ | ⟨w, e, -, -, -, rfl⟩ | ⟨a, b, -, h⟩ | ⟨l, -, h⟩ | ⟨b, -, h⟩ | ⟨d, -, h⟩ | ⟨-, rfl⟩ :=
    takeMove_cases h
  · obtain ⟨-, -, hcfg, -⟩ := exec_outside h
    exact hcfg
  · rfl
  · rfl
  · rw [hostWriteMove_next h, memWrite_cfg]
  · rw [lineMove_frame h]
  · rw [bulkMove_frame h]
  · unfold clockMove at h
    split at h <;> cases h
    rfl
  · rfl

/-- Every move of every agent keeps the invariant. -/
theorem takeMove_machineInv {m : Move} {s t : State} (h : takeMove m s = .next t) (ha : admitted s.cfg = true)
    (hp : pendingAllowed s = true) (hs : MachineInv s) : MachineInv t := by
  have hs' := hs
  obtain ⟨hmem, hengine, hbulk⟩ := hs'
  obtain ⟨i, h, -⟩ | ⟨rfl, -⟩ | ⟨w, e, -, -, -, rfl⟩ | ⟨a, b, -, h⟩ | ⟨l, -, h⟩ | ⟨b, -, h⟩ | ⟨d, -, h⟩ | ⟨-, rfl⟩ :=
    takeMove_cases h
  · obtain ⟨-, h⟩ | ⟨p, ⟨-, -, hseq⟩, h⟩ := exec_next h
    · exact h.machineInv hs
    · exact h.machineInv ha hseq hs
  · exact hs
  · exact ⟨hmem, seqInv_of_idle rfl rfl, hbulk⟩
  · rw [hostWriteMove_next h]
    exact ⟨wf_memWrite hmem a b, hengine, hbulk⟩
  · obtain ⟨a, bs, hstore⟩ := lineMove_mem h
    have hwf := wf_memWriteBytes hmem a bs
    rw [← hstore] at hwf
    rw [lineMove_frame h]
    exact ⟨hwf, hengine, hbulk⟩
  · obtain ⟨a, bs, hstore⟩ := bulkMove_mem h
    have hwf := wf_memWriteBytes hmem a bs
    have hbulk' := bulkInv_bulkMove h hp hbulk
    rw [← hstore] at hwf
    rw [bulkMove_frame h] at hbulk' ⊢
    exact ⟨hwf, hengine, hbulk'⟩
  · unfold clockMove at h
    split at h <;> cases h
    exact hs
  · exact ⟨hmem, seqInv_of_idle rfl rfl, hbulk⟩

theorem machineInv_popMove {s : State} (hs : MachineInv s) : MachineInv (popMove s) := by
  rw [popMove_frame]
  exact hs

/-- Settles O46: the invariant's three parts, kept by the move that the step is. -/
theorem everyStepKeepsTheInvariant : Obligations.EveryStepKeepsTheInvariant := by
  intro s t h
  obtain ⟨ha, hp, hmove⟩ := step_next h
  refine ⟨?_, fun hs => ?_⟩
  · rw [takeMove_cfg hmove, popMove_cfg]
  · exact takeMove_machineInv hmove (by rwa [popMove_cfg]) (by rwa [pendingAllowed_popMove]) (machineInv_popMove hs)

/-- Settles O45. -/
theorem invariantHoldsAfterReset : Obligations.InvariantHoldsAfterReset := by
  intro c
  exact ⟨⟨wf_resetWith c, seqInv_of_idle rfl rfl, by simp [bulkInv, State.resetWith, pendingCount]⟩, nofun⟩

/-- Settles O6: HOST's turn answers the state as it is while BUSY = 1, and `exec` sees another command in the latch. -/
theorem wordOfferedWhileBusyIsNotTaken : Obligations.WordOfferedWhileBusyIsNotTaken := by
  intro s hb
  refine ⟨fun w ha hp hm => ?_, fun i hl => exec_other hb hl⟩
  rw [step_eq_takeMove ha hp, hm]
  simp [takeMove, issueTurn, hb]

/-! ### The issue of a command (R27) -/

/-- Settles O8, command by command: each finishes its issue step from the state that the issue made. -/
theorem issueLatchesTheCommand : Obligations.IssueLatchesTheCommand := by
  intro i s hb haccess hfull
  rw [exec_idle hb]
  cases i with
  | beginInit v =>
    exact ⟨_, rfl, latch_issue _ s, rfl, rfl, rfl, rfl, rfl, nofun, fun _ => rfl,
      by rintro v' ⟨⟩; exact startupDelayOf_toNat _ _, rfl, rfl, rfl, rfl, rfl, fun _ => rfl, rfl, rfl, rfl⟩
  | sendFrame b l =>
    exact ⟨_, rfl, latch_issue _ s, rfl, rfl, rfl, rfl, rfl, by rintro b' l' ⟨⟩; exact timeoutOf_toNat _ _,
      fun h => absurd rfl (h b l), nofun, rfl, rfl, rfl, rfl, rfl, fun _ => rfl, rfl, rfl, rfl⟩
  | receiveFrame b l =>
    refine ⟨issue (.receiveFrame b l) s, ?_, latch_issue _ s, rfl, rfl, rfl, rfl, rfl, nofun, fun _ => rfl, nofun,
      rfl, rfl, rfl, rfl, rfl, fun _ => rfl, rfl, rfl, rfl⟩
    exact congrArg _ (if_pos (hfull b l rfl))
  | canStart | receiveResponse | sendResponse | handleCollision =>
    exact ⟨_, rfl, latch_issue _ s, rfl, rfl, rfl, rfl, rfl, nofun, fun _ => rfl, nofun,
      rfl, rfl, rfl, rfl, rfl, fun _ => rfl, rfl, rfl, rfl⟩
  | backOff | getMaxAttempts | getReceiveTime => exact absurd haccess (Nat.lt_irrefl 0)

/-! ### TIMEOUT and NOW (R21, R48) -/

/-- TIMEOUT changes only by a SEND_FRAME's issue. -/
theorem exec_timeout {i : Instr} {s t : State} (h : exec i s = .next t) :
    t.timeout = s.timeout ∨ s.busy = false ∧ ∃ b l, i = .sendFrame b l ∧ t.timeout = timeoutOf s.cfg l := by
  obtain ⟨hb, h⟩ | ⟨p, -, h⟩ := exec_next h
  · cases h with
    | ends v => exact .inl rfl
    | goes => exact .inl rfl
    | delays d => exact .inl rfl
    | sends b l hi => exact .inr ⟨hb, b, l, hi, rfl⟩
  · cases h with
    | goes q effect => exact .inl effect.timeout
    | ends v effect => exact .inl effect.timeout

/-- Settles O48: of all moves only the issue of a SEND_FRAME and the reset write TIMEOUT. -/
theorem timeoutIsWrittenOnlyBySendFrame : Obligations.TimeoutIsWrittenOnlyBySendFrame := by
  intro s t hstep hne
  obtain ⟨-, -, hmove⟩ := step_next hstep
  rw [← popMove_timeout s] at hne
  obtain ⟨i, h, hturn⟩ | ⟨rfl, -⟩ | ⟨w, e, -, -, -, rfl⟩ | ⟨a, b, -, h⟩ | ⟨l, -, h⟩ | ⟨b, -, h⟩ | ⟨d, -, h⟩ | ⟨hm, -⟩ :=
    takeMove_cases hmove
  · obtain h | ⟨hb, b, l, rfl, htimeout⟩ := exec_timeout h
    · exact absurd h hne
    · obtain ⟨-, hb', -⟩ | ⟨w, hm, -, hd⟩ := hturn
      · exact absurd (hb.symm.trans hb') Bool.false_ne_true
      · rw [popMove_busy] at hb
        exact .inr ⟨w, b, l, hm, hb, hd, by rw [htimeout, timeoutOf_toNat, popMove_cfg]⟩
  · exact absurd rfl hne
  · exact absurd rfl hne
  · exact absurd (by rw [hostWriteMove_next h, memWrite_timeout]) hne
  · exact absurd (by rw [lineMove_frame h]) hne
  · exact absurd (by rw [bulkMove_frame h]) hne
  · unfold clockMove at h
    split at h <;> cases h
    exact absurd rfl hne
  · exact .inl hm

/-- A move leaves NOW, or is CLOCK's and raises it. -/
theorem takeMove_now {m : Move} {s t : State} (h : takeMove m s = .next t) :
    t.now = s.now ∨ ∃ d, m = .clock d ∧ t.now.toNat = s.now.toNat + d := by
  obtain ⟨i, h, -⟩ | ⟨rfl, -⟩ | ⟨w, e, -, -, -, rfl⟩ | ⟨a, b, -, h⟩ | ⟨l, -, h⟩ | ⟨b, -, h⟩ | ⟨d, hm, h⟩ | ⟨-, rfl⟩ :=
    takeMove_cases h
  · obtain ⟨-, hnow, -, -⟩ := exec_outside h
    exact .inl hnow
  · exact .inl rfl
  · exact .inl rfl
  · exact .inl (by rw [hostWriteMove_next h, memWrite_now])
  · exact .inl (by rw [lineMove_frame h])
  · exact .inl (by rw [bulkMove_frame h])
  · unfold clockMove at h
    split at h <;> cases h
    next hwidth =>
    refine .inr ⟨d, hm, ?_⟩
    simp only [BitVec.toNat_add, BitVec.toNat_ofNat]
    omega
  · exact .inl rfl

/-- Settles O49. -/
theorem timeNeverGoesBack : Obligations.TimeNeverGoesBack := by
  intro s t hstep
  obtain ⟨-, -, hmove⟩ := step_next hstep
  have hnow := takeMove_now hmove
  rw [popMove_now] at hnow
  obtain hnow | ⟨d, hm, hnow⟩ := hnow
  · exact ⟨by rw [hnow], fun hne => absurd hnow hne⟩
  · exact ⟨by omega, fun _ => ⟨d, hm, hnow⟩⟩

/-! ### Control inside a command (R51) -/

/-- Settles O59: an access goes on inside its operation or ends the command. -/
theorem controlGoesForwardButForTheLoops : Obligations.ControlGoesForwardButForTheLoops := by
  rintro i p s t ⟨hb, hl, hseq⟩ h
  rw [exec_atPhase hb hl hseq] at h
  cases accessOf_next h with
  | goes q effect poll inside forward => exact .inr ⟨q, rfl, forward⟩
  | ends v effect => exact .inl rfl

/-! ### The layout of the status and done words (R39, R45) -/

/-- A word put together of two is their sum, the upper one shifted. -/
theorem toNat_append_eq_add {m n : Nat} (x : BitVec m) (y : BitVec n) :
    (x ++ y).toNat = x.toNat * 2 ^ n + y.toNat := by
  rw [BitVec.toNat_append, ← Nat.shiftLeft_add_eq_or_of_lt y.isLt, Nat.shiftLeft_eq]

theorem statusWord_toNat (tc : Tc) : (statusWord tc).toNat =
    tc.sendDone.toNat + 2 * tc.dataReady.toNat + 4 * tc.sending.toNat + 8 * tc.receiving.toNat +
      16 * tc.statusRest.toNat := by
  simp only [statusWord, toNat_append_eq_add, BitVec.toNat_ofBool]
  omega

theorem doneWord_toNat (bt : Bt) : (doneWord bt).toNat = bt.done.toNat + 2 * bt.doneRest.toNat := by
  simp only [doneWord, toNat_append_eq_add, BitVec.toNat_ofBool]
  omega

/-- Settles O11: the words that the two reads show are the status word and the done word. -/
theorem statusAndDoneWordsAreLaidOutAsListed : Obligations.StatusAndDoneWordsAreLaidOutAsListed := by
  intro s
  constructor
  · rintro ⟨hb, hl, hseq⟩
    rw [exec_atPhase hb hl hseq]
    exact ⟨_, statusWord s.tc, rfl, rfl, statusWord_toNat s.tc⟩
  · rintro b l ⟨hb, hl, hseq⟩
    rw [exec_atPhase hb hl hseq]
    refine ⟨_, doneWord s.bt, rfl, ?_, doneWord_toNat s.bt⟩
    split <;> rfl

/-! ### The ghost bits (R28) -/

/-- `s` with these ghost bits. -/
def withGhosts (x y : Bool) (s : State) : State := { s with initDone := x, pendingSend := y }

/-- `t'` differs from `t` in the ghost bits alone. -/
def SameButGhosts (t t' : State) : Prop := t' = { t with initDone := t'.initDone, pendingSend := t'.pendingSend }

theorem SameButGhosts.ite {c : Prop} [Decidable c] {t t' e e' : State} (ht : SameButGhosts t t') (he : SameButGhosts e e') :
    SameButGhosts (if c then t else e) (if c then t' else e') := by
  split <;> assumption

/-- The ghost bits decide nothing of what `f` answers: with others it answers the same but for the ghost bits. -/
def GhostFree (f : State → Result) : Prop :=
  ∀ s x y, Answers (fun t => ∃ t', f (withGhosts x y s) = .next t' ∧ SameButGhosts t t') (f s)

theorem GhostFree.next {g : State → State} (h : ∀ s x y, SameButGhosts (g s) (g (withGhosts x y s))) :
    GhostFree fun s => .next (g s) :=
  fun s x y => Answers.next ⟨_, rfl, h s x y⟩

theorem GhostFree.fault {r : Fault} : GhostFree fun _ => .fault r := fun _ _ _ => Answers.fault

theorem GhostFree.submitThen {v : BitVec 32} {k : State → State}
    (h : ∀ s x y, SameButGhosts (k s) (k (withGhosts x y s))) : GhostFree (submitThen v k) :=
  fun s x y => Answers.submitThen fun hroom =>
    ⟨_, submitThen_room (s := withGhosts x y s) hroom, h (regWrite .len v s) x y⟩

theorem regRead_withGhosts (r : ReadReg) (x y : Bool) (s : State) :
    regRead r (withGhosts x y s) = withGhosts x y (regRead r s) := by
  have htc : (regRead r (withGhosts x y s)).tc = (regRead r s).tc := by
    cases r with
    | rxData => exact (regRead_rxData_tc _).trans (regRead_rxData_tc s).symm
    | status | done => rfl
  have hvalue : regValue r (withGhosts x y s) = regValue r s := by cases r <;> rfl
  rw [regRead_frame, htc, hvalue, regRead_frame r s]
  rfl

theorem startOf_ghostFree (i : Instr) : GhostFree (startOf i) := by
  cases i with
  | receiveFrame b l => exact .next fun _ _ _ => .ite rfl rfl
  | _ => exact .next fun _ _ _ => rfl

theorem beginAccess_ghostFree : ∀ p, GhostFree (beginAccess p)
  | 0 | 2 | 3 | 4 | 5 | 6 | 7 => .next fun _ _ _ => rfl
  | 1 => .next fun _ _ _ => .ite rfl rfl
  | _ + 8 => .fault

theorem canStartAccess_ghostFree : ∀ p, GhostFree (canStartAccess p)
  | 0 => .next fun _ _ _ => rfl
  | _ + 1 => .fault

theorem sendFrameAccess_ghostFree (b : BitVec 32) (l : BitVec 16) : ∀ p, GhostFree (sendFrameAccess b l p)
  | 0 => .next fun _ _ _ => .ite rfl rfl
  | 1 | 2 => .next fun _ _ _ => rfl
  | 3 => .submitThen (k := fun t => complete 0 { t with pendingSend := true }) fun _ _ _ => rfl
  | _ + 4 => .fault

theorem receiveFrameAccess_ghostFree (b : BitVec 32) (l : BitVec 16) : ∀ p, GhostFree (receiveFrameAccess b l p)
  | 0 | 4 => .next fun _ _ _ => .ite rfl rfl
  | 1 | 2 | 5 => .next fun _ _ _ => rfl
  | 3 => .submitThen (k := goTo .receiveFrame 4) fun _ _ _ => rfl
  | _ + 6 => .fault

theorem receiveResponseAccess_ghostFree : ∀ p, GhostFree (receiveResponseAccess p)
  | 0 | 1 | 5 | 9 | 10 => .next fun _ _ _ => rfl
  | 2 | 3 | 4 | 6 | 7 => .next fun _ _ _ => .ite rfl rfl
  | 8 => .next fun s x y => by rw [regRead_withGhosts]; rfl
  | _ + 11 => .fault

theorem sendResponseAccess_ghostFree (v : BitVec 8) : ∀ p, GhostFree (sendResponseAccess v p)
  | 0 => .next fun _ _ _ => rfl
  | 1 => .next fun _ _ _ => .ite rfl rfl
  | _ + 2 => .fault

theorem handleCollisionAccess_ghostFree : ∀ p, GhostFree (handleCollisionAccess p)
  | 0 | 1 => .next fun _ _ _ => rfl
  | 2 => .next fun _ _ _ => .ite rfl rfl
  | _ + 3 => .fault

theorem accessOf_ghostFree (i : Instr) (p : Nat) : GhostFree (accessOf i p) := by
  cases i with
  | beginInit v => exact beginAccess_ghostFree p
  | canStart => exact canStartAccess_ghostFree p
  | sendFrame b l => exact sendFrameAccess_ghostFree b l p
  | receiveResponse => exact receiveResponseAccess_ghostFree p
  | receiveFrame b l => exact receiveFrameAccess_ghostFree b l p
  | sendResponse v => exact sendResponseAccess_ghostFree v p
  | handleCollision => exact handleCollisionAccess_ghostFree p
  | backOff | getMaxAttempts | getReceiveTime => exact .fault

theorem exec_ghostFree (i : Instr) : GhostFree (exec i) := by
  intro s x y t h
  obtain ⟨hb, h⟩ | ⟨p, hb, hl, hseq, h⟩ := exec_next_cases h
  · rw [exec_idle (s := withGhosts x y s) hb]
    exact startOf_ghostFree i (issue i s) x y t h
  · rw [exec_atPhase (s := withGhosts x y s) hb hl hseq]
    exact accessOf_ghostFree i p s x y t h

/-- Settles O56: no issue step and no access reads a ghost bit. -/
theorem ghostBitsDecideNothing : Obligations.GhostBitsDecideNothing :=
  fun i s t x y h => exec_ghostFree i s x y t h

/-! ### What the observers see of a step (R50) -/

theorem commandOfStep_issue {i : Instr} {s : State} (hm : nextMove s = .issue (encode i)) (hb : s.busy = false) :
    commandOfStep s = some i := by
  simp [commandOfStep, hm, hb, decode_encode, Except.toOption]

theorem commandOfStep_engine {i : Instr} {s : State} (hm : nextMove s = .engine) (hb : s.busy = true)
    (hl : s.latch = latchOf i) : commandOfStep s = some i := by
  simp [commandOfStep, hm, hb, hl, latchOf, decodeFields_of_fields, Except.toOption]

/-- The command that HOST presents while BUSY = 0 is the command issued. -/
theorem issuedBy_issue {i : Instr} {s : State} (hm : nextMove s = .issue (encode i)) (hb : s.busy = false) :
    issuedBy s = some i := by
  simp [issuedBy, hb, commandOfStep_issue hm hb]

theorem issuedBy_busy {s : State} (hb : s.busy = true) : issuedBy s = none := if_pos hb

/-- An access of ENGINE completes the command in flight, if it completes one. -/
theorem completedBy_engine {i : Instr} {p : Fin 16} {s t : State} (hm : nextMove s = .engine) (h : atPhase i p s) :
    completedBy s t = if t.busy then none else some i := by
  obtain ⟨hb, hl, -⟩ := h
  rw [completedBy, commandOfStep_engine hm hb hl]

/-- ENGINE's turn, with SEQ at a phase, is the access of that phase. -/
theorem access_of_step {i : Instr} {p : Fin 16} {s t : State} (hstep : step s = .next t) (hm : nextMove s = .engine)
    (h : atPhase i p s) : accessOf i p.val (popMove s) = .next t := by
  obtain ⟨hb, hl, hseq⟩ := h
  obtain ⟨-, -, hmove⟩ := step_next hstep
  rw [hm] at hmove
  rw [← exec_atPhase (by rwa [popMove_busy]) (by rwa [popMove_latch]) (by rwa [popMove_seq])]
  rwa [takeMove, engineTurn_of_latch (by rwa [popMove_busy]) (by rwa [popMove_latch])] at hmove

/-- A step is made under an admitted configuration, so FAIL is no byte and no legal count (92_eei_decisions.md D5). -/
theorem fail_of_step {s t : State} (hstep : step s = .next t) :
    255 < s.cfg.fail.toNat ∧ s.cfg.maxPacketLen.toNat < s.cfg.fail.toNat := by
  obtain ⟨ha, -⟩ := step_next hstep
  obtain ⟨-, -, -, -, -, -, -, -, -, -, -, -, -, -, hbyte, hcount⟩ := (admitted_iff s.cfg).1 ha
  exact ⟨hbyte, hcount⟩

theorem byte_ne_failResult {c : Config} (h : 255 < c.fail.toNat) (b : Byte) : b.zeroExtend 64 ≠ failResult c := by
  intro heq
  have hnat := congrArg BitVec.toNat heq
  simp [failResult, res16] at hnat
  omega

theorem count_ne_failResult {c : Config} {n : BitVec 16} (h : n.toNat < c.fail.toNat) : res16 n ≠ failResult c := by
  intro heq
  have hnat := congrArg BitVec.toNat heq
  simp [failResult, res16] at hnat
  omega

/-! ### The sender's transitions -/

section
variable {s t : State}

theorem senderNext_idle (hm : nextMove s ≠ .reset) :
    senderNext .idle s t = if issuedBy s = some .canStart then .carrierSense else .idle := if_neg hm

theorem senderNext_carrierSense (hm : nextMove s ≠ .reset) :
    senderNext .carrierSense s t =
      if completedBy s t = some .canStart ∧ t.res = 0 then .idle
      else if isSendFrame (issuedBy s) then .transmitting else .carrierSense := if_neg hm

theorem senderNext_transmitting (hm : nextMove s ≠ .reset) :
    senderNext .transmitting s t = if issuedBy s = some .receiveResponse then .awaitingAck else .transmitting :=
  if_neg hm

theorem senderNext_awaitingAck (hm : nextMove s ≠ .reset) :
    senderNext .awaitingAck s t = if completedBy s t = some .receiveResponse then .idle else .awaitingAck := if_neg hm

/-- The issue of a SEND_FRAME completes no CAN_START, and starts the transmission. -/
theorem senderNext_sendFrame_issued {b : BitVec 32} {l : BitVec 16} (hm : nextMove s = .issue (encode (.sendFrame b l)))
    (hb : s.busy = false) : senderNext .carrierSense s t = .transmitting := by
  rw [senderNext_carrierSense (by simp [hm]), issuedBy_issue hm hb]
  have hother : completedBy s t ≠ some .canStart := by
    simp [completedBy, commandOfStep_issue hm hb]
  simp [hother, isSendFrame]

/-- CAN_START's access completes it, with 0 exactly when the medium is busy. -/
theorem senderNext_canStart_completed (hstep : step s = .next t) (hm : nextMove s = .engine) (h : atPhase .canStart 0 s) :
    senderNext .carrierSense s t = if s.tc.receiving then .idle else .carrierSense := by
  have hacc := access_of_step hstep hm h
  cases hacc
  rw [senderNext_carrierSense (by simp [hm]), completedBy_engine hm h, issuedBy_busy h.1]
  cases hr : s.tc.receiving <;> simp [isSendFrame, hr]

/-- Either exit of RECEIVE_RESPONSE ends the exchange, and the result is its outcome. -/
theorem exchangeDone_ends {p : Fin 16} {v : BitVec 64} (hm : nextMove s = .engine) (h : atPhase .receiveResponse p s) :
    senderNext .awaitingAck s (exchangeDone v (popMove s)) = .idle ∧
    exchangeOutcome s (exchangeDone v (popMove s)) =
      (if v = failResult s.cfg then some .timeout else some .ackReceived) ∧
    (exchangeDone v (popMove s)).pendingSend = false := by
  have hdone : completedBy s (exchangeDone v (popMove s)) = some .receiveResponse := completedBy_engine hm h
  refine ⟨?_, ?_, rfl⟩
  · rw [senderNext_awaitingAck (by simp [hm]), if_pos hdone]
  · rw [exchangeOutcome, if_pos hdone]
    simp [exchangeDone]

/-- The submission of the frame leaves the sender TRANSMITTING. -/
theorem senderNext_sendFrame_submitted {b : BitVec 32} {l : BitVec 16} (hstep : step s = .next t)
    (hm : nextMove s = .engine) (h : atPhase (.sendFrame b l) 3 s) :
    senderNext .transmitting s t = .transmitting ∧ t.pendingSend = true := by
  refine ⟨?_, ?_⟩
  · rw [senderNext_transmitting (by simp [hm]), issuedBy_busy h.1]
    simp
  · have hacc : submitThen (lenWord l) (fun u => complete 0 { u with pendingSend := true }) (popMove s) = .next t :=
      access_of_step hstep hm h
    obtain ⟨-, rfl⟩ := submitThen_next hacc
    rfl

/-- The sender makes no transition but those of the table. -/
theorem senderNext_transitions (hm : nextMove s ≠ .reset) (p : SenderPhase) :
    senderNext p s t = p ∨ (p, senderNext p s t) ∈
      [(.idle, .carrierSense), (.carrierSense, .idle), (.carrierSense, .transmitting),
       (.transmitting, .awaitingAck), (.awaitingAck, .idle)] := by
  cases p with
  | idle => rw [senderNext_idle hm]; split <;> simp
  | carrierSense => rw [senderNext_carrierSense hm]; split <;> [simp; (split <;> simp)]
  | transmitting => rw [senderNext_transmitting hm]; split <;> simp
  | awaitingAck => rw [senderNext_awaitingAck hm]; split <;> simp

/-! ### The receiver's transitions -/

theorem receiverNext_unarmed (hm : nextMove s ≠ .reset) (staged : Bool) :
    receiverNext .unarmed staged s t = receiverIdle t := if_neg hm

theorem receiverNext_idle (hm : nextMove s ≠ .reset) (staged : Bool) :
    receiverNext .idle staged s t = if capturesFrame staged s then .frameCaptured else receiverIdle t := if_neg hm

theorem receiverNext_frameCaptured (hm : nextMove s ≠ .reset) (staged : Bool) :
    receiverNext .frameCaptured staged s t =
      if isFullReceive t.cfg.maxPacketLen (completedBy s t) ∧ t.res ≠ failResult t.cfg then .deliveredToCaller
      else .frameCaptured := if_neg hm

theorem receiverNext_deliveredToCaller (hm : nextMove s ≠ .reset) (staged : Bool) :
    receiverNext .deliveredToCaller staged s t =
      if isSendResponse (issuedBy s) then .sendAck
      else if armed s && capturesFrame staged s then .frameCaptured else .deliveredToCaller := if_neg hm

theorem receiverNext_sendAck (hm : nextMove s ≠ .reset) (staged : Bool) :
    receiverNext .sendAck staged s t =
      if isSendResponse (completedBy s t) then receiverIdle t else .sendAck := if_neg hm

/-- The receiver is IDLE(background-armed) or its unarmed side. -/
theorem receiverIdle_cases (u : State) : receiverIdle u = .idle ∨ receiverIdle u = .unarmed := by
  unfold receiverIdle
  split <;> simp

/-- The receiver's two idle sides are told apart by INIT_DONE and TC alone. -/
theorem receiverIdle_of_eq {u : State} (hi : u.initDone = s.initDone) (htc : u.tc.activateRx = s.tc.activateRx) :
    receiverIdle u = if armed s then .idle else .unarmed := by
  have harmed : armed u = armed s := by simp only [armed, hi, htc]
  rw [receiverIdle, harmed]

/-- The last access of BEGIN arms the receiver. -/
theorem receiverNext_begin_completed {v : BitVec 8} (hstep : step s = .next t) (hm : nextMove s = .engine)
    (h : atPhase (.beginInit v) 7 s) (staged : Bool) : receiverNext .unarmed staged s t = .idle := by
  have hacc := access_of_step hstep hm h
  cases hacc
  rw [receiverNext_unarmed (by simp [hm])]
  exact if_pos (by simp [armed])

/-- The last access of a RECEIVE_FRAME of full length delivers the frame: its count is not FAIL. -/
theorem receiverNext_receiveFrame_completed {b : BitVec 32} (hstep : step s = .next t) (hm : nextMove s = .engine)
    (h : atPhase (.receiveFrame b s.cfg.maxPacketLen) 5 s) (staged : Bool) :
    receiverNext .frameCaptured staged s t = .deliveredToCaller := by
  have hcount := count_ne_failResult (fail_of_step hstep).2
  have hacc := access_of_step hstep hm h
  cases hacc
  rw [receiverNext_frameCaptured (by simp [hm]), completedBy_engine hm h]
  simp [isFullReceive, hcount]

/-- Its first access finds no frame and completes with FAIL, or goes on: either way nothing is delivered. -/
theorem receiverNext_receiveFrame_started {b : BitVec 32} (hstep : step s = .next t) (hm : nextMove s = .engine)
    (h : atPhase (.receiveFrame b s.cfg.maxPacketLen) 0 s) (staged : Bool) :
    receiverNext .frameCaptured staged s t = .frameCaptured := by
  have hacc := access_of_step hstep hm h
  cases hacc
  rw [receiverNext_frameCaptured (by simp [hm]), completedBy_engine hm h]
  split
  · simp [h.1, isFullReceive]
  · simp

/-- The completion of a SEND_RESPONSE takes the receiver back to IDLE where capture is on. -/
theorem receiverNext_sendResponse_completed {v : BitVec 8} (hstep : step s = .next t) (hm : nextMove s = .engine)
    (h : atPhase (.sendResponse v) 1 s) (hdone : t.busy = false) (staged : Bool) :
    receiverNext .sendAck staged s t = if armed s then .idle else .unarmed := by
  have hacc := access_of_step hstep hm h
  rw [receiverNext_sendAck (by simp [hm]), completedBy_engine hm h]
  simp only [hdone, isSendResponse]
  cases hacc
  refine receiverIdle_of_eq ?_ ?_ <;> split <;> simp

/-- LINE's setting DATA_READY leaves BEGIN's and the engine's part of the receiver's phase as it was. -/
theorem receiverIdle_ready {c : ReadyCause} (hstep : step s = .next t) (hm : nextMove s = .line (.ready c)) :
    receiverIdle t = if armed s then .idle else .unarmed := by
  obtain ⟨-, -, hmove⟩ := step_next hstep
  rw [hm] at hmove
  cases hmove
  exact receiverIdle_of_eq (popMove_initDone s) (by simp)

/-- FRAME_CAPTURED is entered by a capture alone. -/
theorem receiverNext_eq_frameCaptured {q : ReceiverPhase} {staged : Bool}
    (h : receiverNext q staged s t = .frameCaptured) : q = .frameCaptured ∨ capturesFrame staged s = true := by
  have hidle : receiverIdle t ≠ .frameCaptured := by
    obtain h | h := receiverIdle_cases t <;> simp [h]
  by_cases hm : nextMove s = .reset
  · exact absurd ((if_pos hm).symm.trans h) hidle
  cases q with
  | unarmed => exact absurd ((receiverNext_unarmed hm staged).symm.trans h) hidle
  | idle =>
    rw [receiverNext_idle hm] at h
    split at h
    · exact .inr ‹_›
    · exact absurd h hidle
  | frameCaptured => exact .inl rfl
  | deliveredToCaller =>
    rw [receiverNext_deliveredToCaller hm] at h
    split at h
    · cases h
    · split at h
      · next hcaptured =>
        obtain ⟨-, hcaptured⟩ := Bool.and_eq_true_iff.1 hcaptured
        exact .inr hcaptured
      · cases h
  | sendAck =>
    rw [receiverNext_sendAck hm] at h
    split at h
    · exact absurd h hidle
    · cases h

/-- The receiver makes no transition but those of the table. -/
theorem receiverNext_transitions (hm : nextMove s ≠ .reset) (q : ReceiverPhase) (staged : Bool) :
    receiverNext q staged s t = q ∨ (q, receiverNext q staged s t) ∈
      [(.unarmed, .idle), (.idle, .unarmed), (.idle, .frameCaptured), (.frameCaptured, .deliveredToCaller),
       (.deliveredToCaller, .sendAck), (.deliveredToCaller, .frameCaptured), (.sendAck, .idle),
       (.sendAck, .unarmed)] := by
  have hidle := receiverIdle_cases t
  cases q with
  | unarmed =>
    rw [receiverNext_unarmed hm]
    obtain h | h := hidle <;> simp [h]
  | idle =>
    rw [receiverNext_idle hm]
    split
    · simp
    · obtain h | h := hidle <;> simp [h]
  | frameCaptured => rw [receiverNext_frameCaptured hm]; split <;> simp
  | deliveredToCaller =>
    rw [receiverNext_deliveredToCaller hm]
    split
    · simp
    · split <;> simp
  | sendAck =>
    rw [receiverNext_sendAck hm]
    split
    · obtain h | h := hidle <;> simp [h]
    · simp

/-! ### What LINE has staged -/

/-- A step that stages bytes is neither the reset nor LINE's report of a frame. -/
theorem stagedNext_iff : stagedNext false s = true ↔ armed s = true ∧ stages s = true := by
  by_cases hm : nextMove s = .reset ∨ reportsFrame s = true
  · have hstages : stages s = false := by
      obtain hm | hm := hm
      · simp [stages, hm]
      · simp [stages, (reportsFrame_iff s).1 hm]
    simp [stagedNext, hm, hstages]
  · simp [stagedNext, hm]

/-- The reset takes both machines to their start. -/
theorem exchange_reset (hstep : step s = .next t) (hm : nextMove s = .reset) (p : SenderPhase) (q : ReceiverPhase)
    (staged : Bool) : senderNext p s t = .idle ∧ receiverNext q staged s t = .unarmed ∧ stagedNext staged s = false := by
  obtain ⟨-, -, hmove⟩ := step_next hstep
  rw [hm] at hmove
  cases hmove
  exact ⟨if_pos hm, if_pos hm, if_pos (.inl hm)⟩

end

/-- Settles O60, row by row of the table of R50. -/
theorem exchangePhasesFollowTheCommands : Obligations.ExchangePhasesFollowTheCommands := by
  intro s t hstep
  refine ⟨fun hb => ⟨fun hm => ?_, fun b l hm => senderNext_sendFrame_issued hm hb, fun hm => ?_, fun v hm staged => ?_⟩,
    fun hm => ⟨senderNext_canStart_completed hstep hm, fun h => ?_, fun h => ?_,
      fun b l => senderNext_sendFrame_submitted hstep hm, fun v staged h => receiverNext_begin_completed hstep hm h staged,
      fun b staged h => receiverNext_receiveFrame_completed hstep hm h staged,
      fun b staged h => receiverNext_receiveFrame_started hstep hm h staged,
      fun v staged h hdone => receiverNext_sendResponse_completed hstep hm h hdone staged⟩,
    fun hm hready => ⟨?_, fun staged => if_pos (.inr ((reportsFrame_iff s).2 hm))⟩,
    fun hm staged => ⟨?_, ?_⟩,
    fun q staged h => (receiverNext_eq_frameCaptured h).imp_right (capturesFrame_iff staged s).1,
    stagedNext_iff.trans (and_congr_right fun _ => stages_iff s),
    exchange_reset hstep, senderNext_transitions, receiverNext_transitions⟩
  · rw [senderNext_idle (by simp [hm]), senderNext_transmitting (by simp [hm]), issuedBy_issue hm hb]
    simp
  · rw [senderNext_transmitting (by simp [hm]), issuedBy_issue hm hb]
    simp
  · rw [receiverNext_deliveredToCaller (by simp [hm]), issuedBy_issue hm hb]
    rfl
  · have hacc := access_of_step hstep hm h
    cases hacc
    obtain ⟨hidle, houtcome, hpending⟩ :=
      exchangeDone_ends (v := (responseByteOf (popMove s).scratch.v).zeroExtend 64) hm h
    rw [if_neg (byte_ne_failResult (fail_of_step hstep).1 _)] at houtcome
    exact ⟨hidle, houtcome, hpending⟩
  · have hacc := access_of_step hstep hm h
    cases hacc
    obtain ⟨hidle, houtcome, hpending⟩ := exchangeDone_ends (v := failResult (popMove s).cfg) hm h
    rw [popMove_cfg, if_pos rfl, ← popMove_cfg s] at houtcome
    exact ⟨hidle, houtcome, hpending⟩
  · rw [receiverNext_idle (by simp [hm]), if_pos ((capturesFrame_iff true s).2 ⟨rfl, hm, hready⟩)]
  · have hnone : ¬ capturesFrame staged s = true := by simp [capturesFrame_iff, hm]
    rw [receiverNext_idle (by simp [hm]), if_neg hnone, receiverIdle_ready hstep hm]
  · simp [stagedNext, stages, reportsFrame, hm]

end Sys2Proof.Machine
end

section
/-! SUPPORT. No issue step and no access of a command reads memory: it commutes with a change of memory's content
(20_memory.md R62). -/

namespace Sys2Proof.Machine

/-- `s` with this content of memory. -/
def withMem (m : Memory) (s : State) : State := { s with mem := m }

theorem ite_eq_withMem {c : Prop} [Decidable c] {m : Memory} {t t' e e' : State} (ht : t' = withMem m t)
    (he : e' = withMem m e) : (if c then t' else e') = withMem m (if c then t else e) := by
  rw [ht, he, apply_ite (withMem m)]

/-- Memory decides nothing of what `f` answers: with another content `f` answers the same, with that content. -/
def MemFree (f : State → Result) : Prop :=
  ∀ s m, Answers (fun t => f (withMem m s) = .next (withMem m t)) (f s)

theorem MemFree.next {g : State → State} (h : ∀ s m, g (withMem m s) = withMem m (g s)) :
    MemFree fun s => .next (g s) :=
  fun s m => Answers.next (congrArg Host.Outcome.next (h s m))

theorem MemFree.fault {r : Fault} : MemFree fun _ => .fault r := fun _ _ => Answers.fault

theorem MemFree.submitThen {v : BitVec 32} {k : State → State} (h : ∀ s m, k (withMem m s) = withMem m (k s)) :
    MemFree (submitThen v k) :=
  fun s m => Answers.submitThen fun hroom =>
    (submitThen_room (s := withMem m s) hroom).trans (congrArg Host.Outcome.next (h (regWrite .len v s) m))

theorem regRead_withMem (r : ReadReg) (m : Memory) (s : State) :
    regRead r (withMem m s) = withMem m (regRead r s) := by
  cases r with
  | rxData => exact ite_eq_withMem rfl rfl
  | status | done => rfl

theorem startOf_memFree (i : Instr) : MemFree (startOf i) := by
  cases i with
  | receiveFrame b l => exact .next fun _ _ => ite_eq_withMem rfl rfl
  | _ => exact .next fun _ _ => rfl

/-- The accesses by what they turn on: nothing, a flag or the clock, room in BT's queue, or RESP_READ_CLEARS_READY. -/
theorem accessOf_memFree : ∀ i p, MemFree (accessOf i p)
  | .beginInit _, 0 | .beginInit _, 2 | .beginInit _, 3 | .beginInit _, 4 | .beginInit _, 5 | .beginInit _, 6
  | .beginInit _, 7 | .canStart, 0 | .sendFrame _ _, 1 | .sendFrame _ _, 2 | .receiveFrame _ _, 1
  | .receiveFrame _ _, 2 | .receiveFrame _ _, 5 | .receiveResponse, 0 | .receiveResponse, 1 | .receiveResponse, 5
  | .receiveResponse, 9 | .receiveResponse, 10 | .sendResponse _, 0 | .handleCollision, 0 | .handleCollision, 1 =>
    .next fun _ _ => rfl
  | .beginInit _, 1 | .sendFrame _ _, 0 | .receiveFrame _ _, 0 | .receiveFrame _ _, 4 | .receiveResponse, 2
  | .receiveResponse, 3 | .receiveResponse, 4 | .receiveResponse, 6 | .receiveResponse, 7 | .sendResponse _, 1
  | .handleCollision, 2 => .next fun _ _ => ite_eq_withMem rfl rfl
  | .sendFrame _ _, 3 => .submitThen (k := fun t => complete 0 { t with pendingSend := true }) fun _ _ => rfl
  | .receiveFrame _ _, 3 => .submitThen (k := goTo .receiveFrame 4) fun _ _ => rfl
  | .receiveResponse, 8 => .next fun s m => by rw [regRead_withMem]; rfl
  | .beginInit _, _ + 8 | .canStart, _ + 1 | .sendFrame _ _, _ + 4 | .receiveFrame _ _, _ + 6
  | .receiveResponse, _ + 11 | .sendResponse _, _ + 2 | .handleCollision, _ + 3 | .backOff _, _ | .getMaxAttempts, _
  | .getReceiveTime, _ => .fault

theorem exec_memFree (i : Instr) : MemFree (exec i) := by
  intro s m t h
  obtain ⟨hb, h⟩ | ⟨p, hb, hl, hseq, h⟩ := exec_next_cases h
  · rw [exec_idle (s := withMem m s) hb]
    exact startOf_memFree i (issue i s) m t h
  · rw [exec_atPhase (s := withMem m s) hb hl hseq]
    exact accessOf_memFree i p s m t h

/-- Settles O55: memory is outside what a command writes, and no issue step and no access reads it. -/
theorem engineNeverTouchesMemory : Obligations.EngineNeverTouchesMemory := by
  intro i s t m h
  obtain ⟨hmem, -⟩ := exec_outside h
  exact ⟨hmem, exec_memFree i s m t h⟩

end Sys2Proof.Machine
end

section
/-! PROOFS. The family 30_encoding: the word of a command and its four fields, which words are RESERVED, and what the
issue of a RESERVED word does (30_encoding.md R101 to R107). -/

/-! ### The word of a command (R101 to R106) -/

namespace Sys2Proof

/-- Settles O1: the four fields of a command's word are the command's, and these decode to it. -/
theorem decodeOfEncodeIsTheCommand : Obligations.DecodeOfEncodeIsTheCommand := decode_encode

/-- A word is its four fields, side by side. -/
theorem fields_append (w : DWord) : (fieldOp w ++ fieldRsv w) ++ (fieldA1 w ++ fieldA0 w) = w := by
  have hlow : fieldA1 w ++ fieldA0 w = w.extractLsb' 0 48 := BitVec.extractLsb'_append_extractLsb'_eq_extractLsb' rfl
  have hhigh : fieldOp w ++ fieldRsv w = w.extractLsb' 48 16 := BitVec.extractLsb'_append_extractLsb'_eq_extractLsb' rfl
  rw [hlow, hhigh]
  exact BitVec.extractLsb'_append_extractLsb'

/-- Words with the same four fields are the same. -/
theorem word_ext_iff {v w : DWord} : v = w ↔
    fieldOp v = fieldOp w ∧ fieldRsv v = fieldRsv w ∧ fieldA1 v = fieldA1 w ∧ fieldA0 v = fieldA0 w := by
  constructor
  · rintro rfl
    exact ⟨rfl, rfl, rfl, rfl⟩
  · rintro ⟨hop, hrsv, ha1, ha0⟩
    rw [← fields_append v, ← fields_append w, hop, hrsv, ha1, ha0]

/-- The fields of a command are those of the word it is decoded from, whose RSV is 0. -/
theorem fields_of_decode {w : DWord} {i : Instr} (h : decode w = .ok i) :
    fieldRsv w = 0 ∧ i.op.number = fieldOp w ∧ i.a1 = fieldA1 w ∧ i.a0 = fieldA0 w := by
  unfold decode at h
  split at h
  · next hrsv => exact ⟨hrsv, fields_of_decodeFields h⟩
  · cases h

/-- Settles O2: the encoder puts back the fields that the decoder read. -/
theorem eachCommandHasOneWord : Obligations.EachCommandHasOneWord := by
  intro w i h
  obtain ⟨hrsv, hop, ha1, ha0⟩ := fields_of_decode h
  rw [encode, hop, ha1, ha0, ← hrsv, fields_append]

/-- Settles O4, by evaluation of the decoder on the listed words. -/
theorem sampleWordsDecodeAsListed : Obligations.SampleWordsDecodeAsListed := by
  unfold Obligations.SampleWordsDecodeAsListed
  decide

/-! ### RESERVED words and the opcode table (R102) -/

/-- The operand fields that format C0 rejects. -/
theorem formC0_error_iff {a1 : BitVec 16} {a0 : BitVec 32} {i : Instr} :
    (∃ e, formC0 a1 a0 i = .error e) ↔ a1 ≠ 0 ∨ a0 ≠ 0 := by
  rw [formC0, ← not_and_or]
  split
  · next h => simp [h]
  · next h => exact iff_of_true ⟨_, rfl⟩ h

/-- The operand fields that format C8 rejects. -/
theorem formC8_error_iff {a1 : BitVec 16} {a0 : BitVec 32} {i : BitVec 8 → Instr} :
    (∃ e, formC8 a1 a0 i = .error e) ↔ a1.extractLsb' 8 8 ≠ 0 ∨ a0 ≠ 0 := by
  rw [formC8, ← not_and_or]
  split
  · next h => simp [h]
  · next h => exact iff_of_true ⟨_, rfl⟩ h

/-- The fields OP, A1 and A0 of a RESERVED word, by the number and the format of the operation. -/
theorem decodeFields_error_iff (op : BitVec 4) (a1 : BitVec 16) (a0 : BitVec 32) :
    (∃ e, decodeFields op a1 a0 = .error e) ↔
      op.toNat = 0 ∨ 11 ≤ op.toNat ∨
        (op.toNat ∈ [2, 4, 7, 9, 10] ∧ (a1 ≠ 0 ∨ a0 ≠ 0)) ∨
        (op.toNat ∈ [1, 6, 8] ∧ (a1.extractLsb' 8 8 ≠ 0 ∨ a0 ≠ 0)) := by
  unfold decodeFields
  split
  case h_1 h | h_6 h | h_8 h => rw [formC8_error_iff]; simp [h]
  case h_2 h | h_4 h | h_7 h | h_9 h | h_10 h => rw [formC0_error_iff]; simp [h]
  case h_3 h | h_5 h => simp [h]
  case h_11 =>
    have hop : op.toNat = 0 ∨ 11 ≤ op.toNat := by grind
    exact iff_of_true ⟨_, rfl⟩ (or_assoc.1 (.inl hop))

/-- A word is RESERVED by its RSV or by its other fields. -/
theorem decode_error_iff (w : DWord) :
    (∃ e, decode w = .error e) ↔
      fieldRsv w ≠ 0 ∨ ∃ e, decodeFields (fieldOp w) (fieldA1 w) (fieldA0 w) = .error e := by
  unfold decode
  split
  · next h => simp [h]
  · next h => exact iff_of_true ⟨_, rfl⟩ (.inl h)

/-- A1[15:8] = 0 as the mask of format C8 says it. -/
theorem and_maskC8_eq_zero_iff (a1 : BitVec 16) : a1 &&& 0xFF00 = 0 ↔ a1.extractLsb' 8 8 = 0 := by
  have happend : a1.extractLsb' 8 8 ++ a1.extractLsb' 0 8 = a1 := BitVec.extractLsb'_append_extractLsb'
  constructor
  · intro h
    have hhigh := congrArg (BitVec.extractLsb' 8 8) h
    rwa [BitVec.extractLsb'_and, show (0xFF00 : BitVec 16).extractLsb' 8 8 = BitVec.allOnes 8 by decide,
      BitVec.and_allOnes] at hhigh
  · intro h
    rw [← happend, h, show (0xFF00 : BitVec 16) = BitVec.allOnes 8 ++ 0#8 by decide]
    exact (BitVec.and_append ..).trans (by simp)

/-- The operand fields that format C0 accepts, as the masks of its rows say them. -/
theorem formC0_ok_iff {a1 : BitVec 16} {a0 : BitVec 32} {i : Instr} :
    (∃ j, formC0 a1 a0 i = .ok j) ↔ a1 &&& BitVec.allOnes 16 = 0 ∧ a0 &&& BitVec.allOnes 32 = 0 := by
  rw [formC0, BitVec.and_allOnes, BitVec.and_allOnes]
  split
  · next h => exact iff_of_true ⟨_, rfl⟩ h
  · next h => exact iff_of_false nofun h

/-- The operand fields that format C8 accepts, as the masks of its rows say them. -/
theorem formC8_ok_iff {a1 : BitVec 16} {a0 : BitVec 32} {i : BitVec 8 → Instr} :
    (∃ j, formC8 a1 a0 i = .ok j) ↔ a1 &&& 0xFF00 = 0 ∧ a0 &&& BitVec.allOnes 32 = 0 := by
  rw [formC8, and_maskC8_eq_zero_iff, BitVec.and_allOnes]
  split
  · next h => exact iff_of_true ⟨_, rfl⟩ h
  · next h => exact iff_of_false nofun h

/-- Which A1 and A0 make a command of an operation: those that are 0 under the mask of its row. -/
theorem decodeFields_number_ok_iff (o : Op) (a1 : BitVec 16) (a0 : BitVec 32) :
    (∃ i, decodeFields o.number a1 a0 = .ok i) ↔ a1 &&& fieldA1 o.mask = 0 ∧ a0 &&& fieldA0 o.mask = 0 := by
  cases o with
  | beginInit | sendResponse | backOff => exact formC8_ok_iff
  | canStart | receiveResponse | handleCollision | getMaxAttempts | getReceiveTime => exact formC0_ok_iff
  | sendFrame | receiveFrame => exact iff_of_true ⟨_, rfl⟩ ⟨BitVec.and_zero, BitVec.and_zero⟩

/-- A word is operation `o` when RSV is 0, OP is the number of `o`, and A1 and A0 make a command of it. -/
theorem decode_op_iff (o : Op) (w : DWord) :
    (∃ i, decode w = .ok i ∧ i.op = o) ↔
      fieldOp w = o.number ∧ fieldRsv w = 0 ∧ ∃ i, decodeFields o.number (fieldA1 w) (fieldA0 w) = .ok i := by
  constructor
  · rintro ⟨i, h, rfl⟩
    obtain ⟨hrsv, hop, -⟩ := fields_of_decode h
    rw [decode, if_pos hrsv, ← hop] at h
    exact ⟨hop.symm, hrsv, i, h⟩
  · rintro ⟨hop, hrsv, i, h⟩
    obtain ⟨hnumber, -⟩ := fields_of_decodeFields h
    exact ⟨i, by rw [decode, if_pos hrsv, hop, h], Op.number_inj hnumber⟩

/-- The match value of a row has the number of its operation in OP and nothing else. -/
theorem fields_pattern (o : Op) : fieldOp o.pattern = o.number ∧ fieldRsv o.pattern = 0 ∧
    fieldA1 o.pattern = 0 ∧ fieldA0 o.pattern = 0 := by
  cases o <;> decide

/-- The mask of a row keeps the whole of OP and RSV. -/
theorem fields_mask (o : Op) : fieldOp o.mask = BitVec.allOnes 4 ∧ fieldRsv o.mask = BitVec.allOnes 12 := by
  cases o <;> decide

/-- The mask and match of a row, field by field. -/
theorem and_mask_eq_pattern_iff (o : Op) (w : DWord) :
    w &&& o.mask = o.pattern ↔ fieldOp w = o.number ∧ fieldRsv w = 0 ∧
      fieldA1 w &&& fieldA1 o.mask = 0 ∧ fieldA0 w &&& fieldA0 o.mask = 0 := by
  have hop : fieldOp (w &&& o.mask) = fieldOp w &&& fieldOp o.mask := BitVec.extractLsb'_and
  have hrsv : fieldRsv (w &&& o.mask) = fieldRsv w &&& fieldRsv o.mask := BitVec.extractLsb'_and
  have ha1 : fieldA1 (w &&& o.mask) = fieldA1 w &&& fieldA1 o.mask := BitVec.extractLsb'_and
  have ha0 : fieldA0 (w &&& o.mask) = fieldA0 w &&& fieldA0 o.mask := BitVec.extractLsb'_and
  obtain ⟨hopMask, hrsvMask⟩ := fields_mask o
  obtain ⟨hopMatch, hrsvMatch, ha1Match, ha0Match⟩ := fields_pattern o
  rw [word_ext_iff, hop, hrsv, ha1, ha0, hopMask, hrsvMask, BitVec.and_allOnes, BitVec.and_allOnes, hopMatch, hrsvMatch,
    ha1Match, ha0Match]

/-- Settles O3: both sides of each part, field by field. -/
theorem wordIsReservedOrMatchesOneRow : Obligations.WordIsReservedOrMatchesOneRow := by
  intro w
  refine ⟨?_, fun o => ?_, fun i h => ?_⟩
  · exact (decode_error_iff w).trans (or_congr_right (decodeFields_error_iff _ _ _))
  · rw [decode_op_iff, decodeFields_number_ok_iff, and_mask_eq_pattern_iff]
  · obtain ⟨-, hop, ha1, ha0⟩ := fields_of_decode h
    exact ⟨congrArg BitVec.toNat hop, ha1, ha0⟩

end Sys2Proof

/-! ### The issue of a RESERVED word (R107) -/

namespace Sys2Proof.Machine

/-- HOST's turn with a RESERVED word while BUSY = 0 completes it in its issue step. -/
theorem step_issue_reserved {s : State} {w : DWord} {e : Reserved} (ha : admitted s.cfg = true)
    (hp : pendingAllowed s = true) (hm : nextMove s = .issue w) (hb : s.busy = false) (hd : decode w = .error e) :
    step s = .next (issueReserved w (popMove s)) := by
  rw [step_eq_takeMove ha hp, hm]
  simp [takeMove, issueTurn, hb, hd]

/-- Settles O7: field by field, what the issue, the completion and the move taken off leave and change. -/
theorem reservedWordCompletesWithFail : Obligations.ReservedWordCompletesWithFail := by
  intro s w e ha hp hm hb hd
  have hfail : failResult (popMove s).cfg = s.cfg.fail.zeroExtend 64 := by rw [popMove_cfg]; rfl
  have hmem : memoryUnchanged s (issueReserved w (popMove s)) := fun a =>
    congrArg (Memory.readAt · a.toNat) (popMove_mem s)
  refine ⟨_, step_issue_reserved ha hp hm hb hd, ⟨hfail, rfl, rfl, rfl⟩, ?_, popMove_timeout s, popMove_initDone s,
    popMove_pendingSend s, popMove_tc s, popMove_bt s, popMove_line s, hmem, popMove_now s, popMove_cfg s, rfl⟩
  rw [issueReserved, complete_trace, latchWord_trace, popMove_trace, hfail]

end Sys2Proof.Machine
end

section
/-! PROOFS. The family 40_initialise: the word of BEGIN, its phases one by one, what it leaves unchanged, and a whole run
of it (40_initialise.md R130, R131). -/

/-! ### The number a command's word is (30_encoding.md R101) -/

namespace Sys2Proof

/-- The word is the sum of its fields, each at its place; RSV is 0. -/
theorem encode_toNat (i : Instr) :
    (encode i).toNat = i.op.number.toNat * 2 ^ 60 + i.a1.toNat * 2 ^ 32 + i.a0.toNat := by
  simp only [encode, Machine.toNat_append_eq_add, BitVec.ofNat_eq_ofNat, BitVec.toNat_ofNat]
  omega

end Sys2Proof

namespace Sys2Proof.Machine

/-! ### What every command leaves unchanged (10_state.md R22, R27) -/

theorem exec_outsideUnchanged {i : Instr} {s t : State} (h : exec i s = .next t) : outsideUnchanged s t := by
  obtain ⟨hmem, hrest⟩ := exec_outside h
  exact ⟨fun a => congrArg (Memory.readAt · a.toNat) hmem, hrest⟩

theorem AccessEffect.res {s u : State} (h : AccessEffect s u) : u.res = s.res := (congrArg State.res h.frame :)

/-- A command that has not completed leaves RES. -/
theorem exec_res {i : Instr} {s t : State} (h : exec i s = .next t) (hb : t.busy = true) : t.res = s.res := by
  obtain ⟨-, h⟩ | ⟨p, -, h⟩ := exec_next h
  · cases h with
    | ends v => cases hb
    | goes => rfl
    | delays d => rfl
    | sends b l hi => rfl
  · cases h with
    | goes q effect => exact effect.res
    | ends v effect => cases hb

/-! ### The phases of BEGIN (R130) -/

theorem exec_of_atPhase {i : Instr} {p : Fin 16} {s : State} (h : atPhase i p s) : exec i s = accessOf i p.val s := by
  obtain ⟨hb, hl, hseq⟩ := h
  exact exec_atPhase hb hl hseq

/-- SEQ kept at its phase is no change. -/
theorem goTo_self {op : Op} {p : Fin 16} {s : State} (h : s.seq = .phase op p) : goTo op p s = s := by
  rw [goTo, ← h]

theorem elapsed_iff (d : Nat) (s : State) : elapsed d s = true ↔ s.scratch.t0.toNat + d ≤ s.now.toNat :=
  decide_eq_true_iff

/-- P1 of BEGIN, the delay over. -/
theorem beginAccess_elapsed {s : State} (h : s.scratch.t0.toNat + s.scratch.dly.toNat ≤ s.now.toNat) :
    beginAccess 1 s = .next (goTo .beginInit 2 s) :=
  congrArg _ (if_pos ((elapsed_iff _ s).2 h))

/-- P1 of BEGIN, the delay not yet over. -/
theorem beginAccess_waits {s : State} (h : s.now.toNat < s.scratch.t0.toNat + s.scratch.dly.toNat) :
    beginAccess 1 s = .next (goTo .beginInit 1 s) :=
  congrArg _ (if_neg fun he => Nat.not_le.2 h ((elapsed_iff _ s).1 he))

/-- Settles O9: the word by its fields, the issue, and then each phase by its access. -/
theorem beginFollowsItsPhases : Obligations.BeginFollowsItsPhases := by
  intro v s
  have access {p : Fin 16} (h : atPhase (.beginInit v) p s) : exec (.beginInit v) s = beginAccess p.val s :=
    exec_of_atPhase h
  refine ⟨?word, fun hb => ?issue, access, fun h hpassed => ?ends, fun h hleft => ?waits, access, access, access, access,
    access, fun h => ?completes⟩
  case word =>
    have hv := v.isLt
    simp only [encode_toNat, Instr.op, Op.number, Instr.a1, Instr.a0, BitVec.toNat_ofNat, BitVec.truncate_eq_setWidth,
      BitVec.toNat_setWidth, BitVec.ofNat_eq_ofNat]
    omega
  case issue =>
    rw [exec_idle hb]
    exact ⟨_, rfl, ⟨rfl, latch_issue (.beginInit v) s, rfl⟩, startupDelayOf_toNat s.cfg v, rfl, rfl, rfl, rfl, rfl, rfl,
      rfl, fun _ => rfl, rfl, rfl, rfl⟩
  case ends => exact (access h).trans (beginAccess_elapsed hpassed)
  case waits =>
    have hexec := (access h).trans (beginAccess_waits hleft)
    obtain ⟨-, -, hseq⟩ := h
    exact hexec.trans (congrArg _ (goTo_self hseq))
  case completes =>
    exact ⟨_, access h, ⟨rfl, rfl, rfl, rfl⟩, rfl, rfl, rfl, rfl, rfl, rfl, ⟨fun _ => rfl, rfl, rfl, rfl⟩, rfl⟩

/-! ### The frame of BEGIN (R130) -/

/-- What the access at phase `p` of BEGIN may change of the facade and the ghost bits: the six registers, and INIT_DONE at
P7. -/
structure BeginEffect (p : Nat) (s t : State) : Prop where
  tc : t.tc = { s.tc with
    activateRx := t.tc.activateRx, preambleLen := t.tc.preambleLen, padLen := t.tc.padLen,
    dataBitWidth := t.tc.dataBitWidth, acceptance := t.tc.acceptance, enable := t.tc.enable } := by rfl
  bt : t.bt = s.bt := by rfl
  line : t.line = s.line := by rfl
  pendingSend : t.pendingSend = s.pendingSend := by rfl
  initDone : t.initDone = s.initDone ∨ p = 7 := by exact .inl rfl

theorem beginAccess_effect (s : State) : ∀ p, Answers (BeginEffect p s) (beginAccess p s)
  | 0 | 2 | 3 | 4 | 5 | 6 => .next {}
  | 1 => .nextIte (fun _ => {}) (fun _ => {})
  | 7 => .next { initDone := .inr rfl }
  | _ + 8 => .fault

/-- BEGIN's issue changes nothing of them, and each of its accesses only what it may. -/
theorem execBegin_effect {v : BitVec 8} {s t : State} (h : exec (.beginInit v) s = .next t) :
    ∃ p : Nat, BeginEffect p s t ∧ (p = 7 → s.seq = .phase .beginInit 7) := by
  obtain ⟨-, h⟩ | ⟨p, -, -, hseq, h⟩ := exec_next_cases h
  · cases h
    exact ⟨0, {}, nofun⟩
  · refine ⟨p.val, beginAccess_effect s p t h, fun hp => ?_⟩
    rw [hseq, show p = 7 from Fin.ext hp]
    rfl

/-- Settles O18: BEGIN's own effect, and what every command leaves unchanged. -/
theorem beginChangesOnlyTheSixRegisters : Obligations.BeginChangesOnlyTheSixRegisters := by
  intro v s t h
  obtain ⟨p, effect, hlast⟩ := execBegin_effect h
  have htimeout : t.timeout = s.timeout := by
    obtain h | ⟨-, b, l, hi, -⟩ := exec_timeout h
    · exact h
    · cases hi
  rw [effect.tc]
  exact ⟨rfl, rfl, rfl, rfl, rfl, rfl, htimeout, effect.bt, effect.line, effect.pendingSend,
    effect.initDone.imp_right hlast, exec_res h, exec_outsideUnchanged h⟩

/-! ### A run along a listed schedule (00_scope.md R13) -/

/-- A run goes on from where its first step leads. -/
theorem stepN_of_step {n : Nat} {s t : State} (h : step s = .next t) : stepN (n + 1) s = stepN n t := by
  have hcore : core.step s = .next t := h
  simp only [stepN, Host.Core.run, hcore] <;> rfl

/-- A run of `m` steps goes on from where they lead. -/
theorem stepN_add {m n : Nat} {s t : State} {r : Result} (h : stepN m s = .next t) (hrest : stepN n t = r) :
    stepN (m + n) s = r := by
  induction m generalizing s with
  | zero =>
    cases h
    rwa [Nat.zero_add]
  | succ m ih =>
    obtain ⟨u, hstep, hu⟩ := stepN_succ_next h
    rw [Nat.succ_add, stepN_of_step hstep]
    exact ih hu

section Scheduled
variable {s t : State} {ms : List Move} {n : Nat} {r : Result}

/-- The step that makes the first listed move. -/
theorem step_listed {m : Move} (ha : admitted s.cfg = true) (hp : pendingAllowed s = true)
    (hs : s.schedule = m :: ms) : step s = takeMove m { s with schedule := ms } := by
  rw [step_eq_takeMove ha hp, nextMove, popMove, hs]

/-- A run makes the first listed move and goes on from where it leads. -/
theorem stepN_listed {m : Move} (ha : admitted s.cfg = true) (hp : pendingAllowed s = true)
    (hs : s.schedule = m :: ms) (h : takeMove m { s with schedule := ms } = .next t) (hrest : stepN n t = r) :
    stepN (n + 1) s = r :=
  (stepN_of_step ((step_listed ha hp hs).trans h)).trans hrest

/-- HOST issues a command. -/
theorem stepN_issue {i : Instr} (ha : admitted s.cfg = true) (hp : pendingAllowed s = true)
    (hs : s.schedule = .issue (encode i) :: ms) (hb : s.busy = false)
    (h : startOf i (issue i { s with schedule := ms }) = .next t) (hrest : stepN n t = r) : stepN (n + 1) s = r := by
  refine stepN_listed ha hp hs ?_ hrest
  rw [takeMove, issueTurn_of_decode (by exact hb) (decode_encode i), exec_idle (by exact hb), h]

/-- ENGINE makes the access of the phase it stands at. -/
theorem stepN_engine {i : Instr} {p : Fin 16} (ha : admitted s.cfg = true) (hp : pendingAllowed s = true)
    (hs : s.schedule = .engine :: ms) (hphase : atPhase i p s)
    (h : accessOf i p.val { s with schedule := ms } = .next t) (hrest : stepN n t = r) : stepN (n + 1) s = r := by
  have haccess := exec_of_atPhase (s := { s with schedule := ms }) hphase
  obtain ⟨hb, hl, -⟩ := hphase
  refine stepN_listed ha hp hs ?_ hrest
  rw [takeMove, engineTurn_of_latch (by exact hb) (by exact hl), haccess, h]

/-- A sum of time that 64 bits hold is exact. -/
theorem now_add_toNat {now : BitVec 64} {d : Nat} (h : now.toNat + d < 2 ^ 64) :
    (now + BitVec.ofNat 64 d).toNat = now.toNat + d := by
  rw [BitVec.toNat_add, BitVec.toNat_ofNat]
  omega

/-- CLOCK raises NOW. -/
theorem stepN_clock {d : Nat} (ha : admitted s.cfg = true) (hp : pendingAllowed s = true)
    (hs : s.schedule = .clock d :: ms) (hd : s.now.toNat + d < 2 ^ 64)
    (hrest : stepN n { s with schedule := ms, now := s.now + BitVec.ofNat 64 d } = r) : stepN (n + 1) s = r :=
  stepN_listed ha hp hs (if_pos hd) hrest

end Scheduled

/-! ### A whole BEGIN (R130, R131) -/

/-- The transport-control region as BEGIN leaves it: the presets, enabled and armed. -/
def configuredTc (c : Config) (tc : Tc) : Tc :=
  { tc with
    activateRx := 1, preambleLen := c.presetPreamble, padLen := c.presetPad, dataBitWidth := c.presetDataWidth,
    acceptance := c.presetAcceptance, enable := 1 }

/-- `s` with SEQ at a phase of BEGIN, this transport-control region, these moves to come and this record:
the form in which the run below names each of its states. -/
def beginAt (p : Fin 16) (tc : Tc) (ms : List Move) (shown : List Event) (s : State) : State :=
  { s with seq := .phase .beginInit p, tc := tc, schedule := ms, trace := shown }

/-- `s` with BEGIN issued and NOW raised by `d`. -/
def beginIssued (v : BitVec 8) (d : Nat) (scratch : Scratch) (s : State) : State :=
  { s with
    latch := latchOfWord (encode (.beginInit v)), busy := true, resValid := false, scratch := scratch,
    now := s.now + BitVec.ofNat 64 d }

/-- The issue, the first clock read, CLOCK's move past the delay and the second clock read lead BEGIN to P2. -/
theorem begin_waits {v : BitVec 8} {s : State} {d : Nat} {ms : List Move} (ha : admitted s.cfg = true)
    (hp : pendingAllowed s = true) (hb : s.busy = false) (hd : v.toNat * s.cfg.startupUnitUs.toNat ≤ d)
    (hnow : s.now.toNat + d < 2 ^ 64)
    (hs : s.schedule = .issue (encode (.beginInit v)) :: .engine :: .clock d :: .engine :: ms) :
    ∃ scratch shown, stepN 4 s = .next (beginAt 2 s.tc ms shown (beginIssued v d scratch s)) := by
  have hl := latch_issue (.beginInit v) s
  have hpassed : s.now.toNat + (startupDelayOf s.cfg v).toNat ≤ (s.now + BitVec.ofNat 64 d).toNat := by
    rw [now_add_toNat hnow, startupDelayOf_toNat]
    omega
  exact ⟨_, _, stepN_issue ha hp hs hb rfl <| stepN_engine (p := 0) ha hp rfl ⟨rfl, hl, rfl⟩ rfl <|
    stepN_clock ha hp rfl hnow <|
    stepN_engine (p := 1) ha hp rfl ⟨rfl, hl, rfl⟩ (beginAccess_elapsed hpassed) rfl⟩

section Writes
variable {v : BitVec 8} {s : State} {tc : Tc} {ms : List Move} {shown : List Event} (ha : admitted s.cfg = true)
  (hp : pendingAllowed s = true) (hb : s.busy = true) (hl : s.latch = latchOf (.beginInit v))
include ha hp hb hl

/-- ENGINE's step from a phase of BEGIN to the next. -/
theorem stepN_beginAt {p q : Fin 16} {tc' : Tc} {shown' : List Event} {n : Nat} {r : Result}
    (hnext : beginAccess p.val (beginAt p tc ms shown s) = .next (beginAt q tc' ms shown' s))
    (hrest : stepN n (beginAt q tc' ms shown' s) = r) : stepN (n + 1) (beginAt p tc (.engine :: ms) shown s) = r :=
  stepN_engine (i := .beginInit v) (s := beginAt p tc (.engine :: ms) shown s) ha hp rfl ⟨hb, hl, rfl⟩ hnext hrest

/-- ENGINE's step from P7 arms capture and completes BEGIN with 1. -/
theorem begin_arms : stepN 1 (beginAt 7 tc (.engine :: ms) shown s) =
    .next (complete 1 { beginAt 7 { tc with activateRx := 1 } ms (.wrote .activateRx 1 :: shown) s with
      initDone := true }) :=
  stepN_engine (i := .beginInit v) (s := beginAt 7 tc (.engine :: ms) shown s) ha hp rfl ⟨hb, hl, rfl⟩ rfl rfl

/-- From P2 on six steps of ENGINE write the six registers and complete BEGIN with 1. -/
theorem begin_writes : ∃ shown', stepN 6 (beginAt 2 tc (List.replicate 6 .engine ++ ms) shown s) =
    .next (complete 1 { beginAt 7 (configuredTc s.cfg tc) ms shown' s with initDone := true }) :=
  ⟨_, stepN_beginAt ha hp hb hl rfl <| stepN_beginAt ha hp hb hl rfl <| stepN_beginAt ha hp hb hl rfl <|
    stepN_beginAt ha hp hb hl rfl <| stepN_beginAt ha hp hb hl rfl <| begin_arms ha hp hb hl⟩

end Writes

/-- Settles O10: four steps bring BEGIN past its delay, and six to its end. -/
theorem beginConfiguresAndArms : Obligations.BeginConfiguresAndArms := by
  intro v s d rest ha hp hb hd hnow hs
  obtain ⟨scratch, shown, hwait⟩ := begin_waits ha hp hb hd hnow hs
  obtain ⟨shown', hwrites⟩ := begin_writes (v := v) (s := beginIssued v d scratch s) (tc := s.tc) (ms := rest)
    (shown := shown) ha hp rfl (latch_issue (.beginInit v) s)
  exact ⟨_, stepN_add hwait hwrites, ⟨rfl, rfl, rfl, rfl⟩, rfl, rfl, now_add_toNat hnow, rfl, rfl, rfl, rfl,
    fun _ => rfl, rfl⟩

end Sys2Proof.Machine
end

section
/-! PROOFS. The family 41_csma_arbiter_and_backoff: what the operations that only read or compute leave unchanged, the
sample of CAN_START, the power of BACK_OFF and its laws, and the wait of HANDLE_COLLISION
(41_csma_arbiter_and_backoff.md R140 to R143). -/

namespace Sys2Proof.Machine

/-! ### What the operations that only read or compute leave unchanged (R140 to R143, R215, R216) -/

/-- The operations that only read or compute. -/
def readersAndTimers : List Op := [.canStart, .backOff, .handleCollision, .getMaxAttempts, .getReceiveTime]

theorem onlyEngineChanged_refl (s : State) : onlyEngineChanged s s :=
  ⟨rfl, rfl, rfl, rfl, rfl, rfl, fun _ => rfl, rfl, rfl, rfl⟩

/-- Of the issue steps only SEND_FRAME's changes anything outside the engine's own state: TIMEOUT. -/
theorem StartNext.onlyEngineChanged {i : Instr} {s t : State} (h : StartNext i (issue i s) t) (hi : i.op ≠ .sendFrame) :
    onlyEngineChanged s t := by
  cases h with
  | ends v => exact onlyEngineChanged_refl s
  | goes => exact onlyEngineChanged_refl s
  | delays d => exact onlyEngineChanged_refl s
  | sends b l hsend => exact absurd (congrArg Instr.op hsend) hi

theorem canStartAccess_onlyEngineChanged (s : State) : ∀ p, Answers (onlyEngineChanged s) (canStartAccess p s)
  | 0 => .next (onlyEngineChanged_refl s)
  | _ + 1 => .fault

theorem handleCollisionAccess_onlyEngineChanged (s : State) :
    ∀ p, Answers (onlyEngineChanged s) (handleCollisionAccess p s)
  | 0 => .next (onlyEngineChanged_refl s)
  | 1 => .next (onlyEngineChanged_refl s)
  | 2 => .nextIte (fun _ => onlyEngineChanged_refl s) (fun _ => onlyEngineChanged_refl s)
  | _ + 3 => .fault

theorem accessOf_onlyEngineChanged {i : Instr} (hi : i.op ∈ readersAndTimers) (p : Nat) (s : State) :
    Answers (onlyEngineChanged s) (accessOf i p s) := by
  cases i with
  | canStart => exact canStartAccess_onlyEngineChanged s p
  | handleCollision => exact handleCollisionAccess_onlyEngineChanged s p
  | backOff | getMaxAttempts | getReceiveTime => exact .fault
  | beginInit | sendFrame | receiveResponse | receiveFrame | sendResponse => simp [readersAndTimers, Instr.op] at hi

theorem exec_onlyEngineChanged {i : Instr} {s t : State} (hi : i.op ∈ readersAndTimers) (h : exec i s = .next t) :
    onlyEngineChanged s t := by
  obtain ⟨-, h⟩ | ⟨p, -, -, -, h⟩ := exec_next_cases h
  · exact (startOf_next h).onlyEngineChanged fun hop => absurd (hop ▸ hi) (by decide)
  · exact accessOf_onlyEngineChanged hi p s t h

/-- Settles O17: what these commands leave unchanged, and RES before a command has completed. -/
theorem readersAndTimersChangeOnlyTheResult : Obligations.ReadersAndTimersChangeOnlyTheResult := by
  intro i s t hi h
  obtain ⟨htimeout, htc, hbt, hline, hinit, hpending, houtside⟩ := exec_onlyEngineChanged hi h
  exact ⟨htimeout, htc, hbt, hline, hinit, hpending, exec_res h, houtside⟩

/-- A command whose issue step adds nothing to the issue stands at P0, with nothing but the engine changed. -/
theorem exec_issues {i : Instr} {s : State} (hb : s.busy = false)
    (hstart : startOf i (issue i s) = .next (issue i s)) :
    ∃ t, exec i s = .next t ∧ atPhase i 0 t ∧ t.res = s.res ∧ onlyEngineChanged s t :=
  ⟨issue i s, (exec_idle hb).trans hstart, ⟨rfl, latch_issue i s, rfl⟩, rfl, onlyEngineChanged_refl s⟩

/-! ### CAN_START (R140) -/

/-- The flag that CAN_START takes from the word it reads is RECEIVING itself. -/
theorem canStartAccess_sample (s : State) :
    canStartAccess 0 s = .next (complete (if s.tc.receiving then 0 else 1) (readStatus s)) := by
  rw [← receivingOf_statusWord s.tc]
  rfl

/-- Settles O12: the word, the issue, and the one sample. -/
theorem canStartReturnsNotReceiving : Obligations.CanStartReturnsNotReceiving := by
  refine ⟨rfl, fun s => ⟨fun hb => exec_issues hb rfl, fun h => ?_⟩⟩
  have hexec := (exec_of_atPhase h).trans (canStartAccess_sample s)
  exact ⟨_, hexec, ⟨rfl, rfl, rfl, rfl⟩, rfl, onlyEngineChanged_refl s⟩

/-! ### BACK_OFF (R141, R142) -/

theorem degree_le_of_admitted {c : Config} (h : admitted c = true) : c.degree ≤ 7 := by
  obtain ⟨-, -, -, -, -, -, hdegree, -⟩ := (admitted_iff c).1 h
  exact hdegree

theorem encode_backOff_toNat (a : BitVec 8) :
    (encode (.backOff a)).toNat = 0x8000000000000000 + a.toNat * 2 ^ 32 := by
  have hsum := encode_toNat (.backOff a)
  have ha1 : (Instr.backOff a).a1.toNat = a.toNat := BitVec.toNat_setWidth_of_le (by decide)
  have hop : (Instr.backOff a).op.number.toNat = 8 := rfl
  have ha0 : (Instr.backOff a).a0.toNat = 0 := rfl
  omega

/-- BACK_OFF completes in its issue step. -/
theorem exec_backOff {a : BitVec 8} {s : State} (hb : s.busy = false) :
    exec (.backOff a) s = .next (complete (backOffOf s.cfg a) (issue (.backOff a) s)) := exec_idle hb

/-- The result of BACK_OFF is the exact power. -/
theorem exec_backOff_res {a : BitVec 8} {s t : State} (ha : admitted s.cfg = true) (hb : s.busy = false)
    (h : exec (.backOff a) s = .next t) : t.res.toNat = a.toNat ^ (1 + s.cfg.degree) := by
  rw [exec_backOff hb] at h
  cases h
  exact backOffOf_toNat (degree_le_of_admitted ha) a

/-- Settles O13: the word, and the completion in the issue step. -/
theorem backOffReturnsThePower : Obligations.BackOffReturnsThePower := by
  refine fun a s => ⟨encode_backOff_toNat a, fun ha hb => ?_⟩
  have hexec := exec_backOff (a := a) hb
  exact ⟨_, hexec, exec_backOff_res ha hb hexec, ⟨rfl, rfl, rfl, rfl⟩, onlyEngineChanged_refl s, rfl⟩

/-- Settles O14: both results are powers with one exponent, which is not 0; at DEGREE 4 it is 5. -/
theorem backOffIsDeterministicAndIncreasing : Obligations.BackOffIsDeterministicAndIncreasing := by
  intro a b s s' t t' ha ha' hdegree hb hb' h h'
  have ht := exec_backOff_res ha hb h
  have ht' := exec_backOff_res ha' hb' h'
  rw [← hdegree] at ht'
  have hfour {n : BitVec 8} (hd : s.cfg.degree = 4) (hn : a = n) : t.res.toNat = n.toNat ^ 5 := by rw [ht, hd, hn]
  refine ⟨?deterministic, ?increasing, hfour, hfour, fun hd hn => ?beyond32⟩
  case deterministic =>
    rintro rfl
    exact BitVec.eq_of_toNat_eq (ht.trans ht'.symm)
  case increasing =>
    intro hlt
    rw [ht, ht']
    exact Nat.pow_lt_pow_left hlt (by omega)
  case beyond32 =>
    rw [hfour hd hn]
    decide

/-! ### HANDLE_COLLISION (R143) -/

/-- The draw fits DLY. -/
theorem draw_toNat (m : BitVec 32) (s : State) : (BitVec.ofNat 40 (draw m.toNat s)).toNat = draw m.toNat s :=
  (BitVec.toNat_ofNat _ 40).trans <|
    Nat.mod_eq_of_lt (((draw_le m.toNat s).trans_lt m.isLt).trans_le (Nat.pow_le_pow_right (by decide) (by decide)))

/-- P2, the delay over. -/
theorem handleCollisionAccess_elapsed {s : State} (h : s.scratch.t0.toNat + s.scratch.dly.toNat ≤ s.now.toNat) :
    handleCollisionAccess 2 s = .next (complete 0 s) :=
  congrArg _ (if_pos ((elapsed_iff _ s).2 h))

/-- P2, the delay not yet over. -/
theorem handleCollisionAccess_waits {s : State} (h : s.now.toNat < s.scratch.t0.toNat + s.scratch.dly.toNat) :
    handleCollisionAccess 2 s = .next (goTo .handleCollision 2 s) :=
  congrArg _ (if_neg fun he => Nat.not_le.2 h ((elapsed_iff _ s).1 he))

/-- Settles O16: the word, the issue, and then each phase by its access. -/
theorem handleCollisionWaitsTheDraw : Obligations.HandleCollisionWaitsTheDraw := by
  refine ⟨rfl, fun s => ⟨fun hb => exec_issues hb rfl, fun h => ?draws, exec_of_atPhase, fun h hpassed => ?ends,
    fun h hleft => ?waits⟩⟩
  case draws =>
    exact ⟨_, draw s.cfg.collisionDelayMaxUs.toNat s, exec_of_atPhase h, draw_le _ s, draw_toNat _ s, rfl⟩
  case ends =>
    have hexec := (exec_of_atPhase h).trans (handleCollisionAccess_elapsed hpassed)
    exact ⟨_, hexec, ⟨rfl, rfl, rfl, rfl⟩, onlyEngineChanged_refl s, rfl⟩
  case waits =>
    have hexec := (exec_of_atPhase h).trans (handleCollisionAccess_waits hleft)
    obtain ⟨-, -, hseq⟩ := h
    exact hexec.trans (congrArg _ (goTo_self hseq))

end Sys2Proof.Machine
end

section
/-! PROOFS. The family 42_frame_send: which commands are refused, the phases of SEND_FRAME and what they leave unchanged,
its timeout calculator, a whole SEND_FRAME, and which submitted transfers end the run
(42_frame_send.md R160 to R162). -/

namespace Sys2Proof.Machine

/-! ### What a command is refused for (R162; 10_state.md R24; 60_exceptions.md R240) -/

/-- The refusals of a meaning: those of its issue step and of its accesses, and the port's while another command is in
flight. -/
theorem command_refused_iff {i : Instr} {start : State → Result} {access : Nat → State → Result} {s : State}
    {r : Refusal} : command i start access s = .refused r ↔
      (s.busy = false ∧ start (issue i s) = .refused r) ∨
      (∃ p : Fin 16, atPhase i p s ∧ access p.val s = .refused r) ∨
      (r = .commandInFlight ∧ s.busy = true ∧ s.latch ≠ latchOf i) := by
  constructor
  · intro h
    simp only [command] at h
    split at h
    · next hb => exact .inl ⟨hb, h⟩
    · next hb =>
      rw [Bool.not_eq_false] at hb
      split at h
      · next hl =>
        split at h
        · cases h
        · next op p hseq =>
          split at h
          · next hop => exact .inr (.inl ⟨p, ⟨hb, hl, hop ▸ hseq⟩, h⟩)
          · cases h
      · next hl =>
        cases h
        exact .inr (.inr ⟨rfl, hb, hl⟩)
  · rintro (⟨hb, h⟩ | ⟨p, ⟨hb, hl, hseq⟩, h⟩ | ⟨rfl, hb, hl⟩)
    · rwa [command_idle hb]
    · rwa [command_atPhase hb hl hseq rfl]
    · exact command_other hb hl

/-- The write of BT.LEN is refused exactly when the queue is full. -/
theorem submitThen_refused_iff {v : BitVec 32} {k : State → State} {s : State} {r : Refusal} :
    submitThen v k s = .refused r ↔ s.cfg.btQueueDepth ≤ pendingCount s.bt ∧ r = .bulkQueueFull := by
  unfold submitThen
  split
  · next hroom => exact iff_of_false nofun fun h => Nat.not_le.2 hroom h.1
  · next hfull => simp [Nat.not_lt.1 hfull, eq_comm]

/-- No issue step is refused. -/
theorem startOf_not_refused (i : Instr) (u : State) (r : Refusal) : startOf i u ≠ .refused r := by
  cases i <;> nofun

/-- The command submits a transfer, at P3. -/
def submits (i : Instr) : Prop := ∃ b l, i = .sendFrame b l ∨ i = .receiveFrame b l

/-- The one access that is refused is the write of BT.LEN into a full queue. -/
theorem accessOf_refused_iff {i : Instr} {p : Nat} {s : State} {r : Refusal} : accessOf i p s = .refused r ↔
    submits i ∧ p = 3 ∧ s.cfg.btQueueDepth ≤ pendingCount s.bt ∧ r = .bulkQueueFull := by
  have other {o : Result} (ho : o ≠ .refused r) (hi : ¬ (submits i ∧ p = 3)) : o = .refused r ↔
      submits i ∧ p = 3 ∧ s.cfg.btQueueDepth ≤ pendingCount s.bt ∧ r = .bulkQueueFull :=
    iff_of_false ho fun ⟨hs, hp, _⟩ => hi ⟨hs, hp⟩
  cases i with
  | sendFrame b l =>
    simp only [accessOf, sendFrameAccess]
    split
    case h_4 => simp [submitThen_refused_iff, submits]
    all_goals exact other nofun (by simp_all)
  | receiveFrame b l =>
    simp only [accessOf, receiveFrameAccess]
    split
    case h_4 => simp [submitThen_refused_iff, submits]
    all_goals exact other nofun (by simp_all)
  | beginInit | canStart | receiveResponse | sendResponse | handleCollision =>
    simp only [accessOf, beginAccess, canStartAccess, receiveResponseAccess, sendResponseAccess, handleCollisionAccess]
    split <;> exact other nofun (by simp [submits])
  | backOff | getMaxAttempts | getReceiveTime => exact other nofun (by simp [submits])

/-- Settles O58: of the three places where a meaning can be refused the issue step never is, an access only at its
submission, and the port only while another command is in flight. -/
theorem commandsAreRefusedExactlyByPortAndQueue : Obligations.CommandsAreRefusedExactlyByPortAndQueue := by
  intro i s r
  rw [exec_eq_command, command_refused_iff]
  constructor
  · rintro (⟨-, h⟩ | ⟨p, hphase, h⟩ | hport)
    · exact absurd h (startOf_not_refused i _ r)
    · obtain ⟨hi, hp, hfull, hr⟩ := accessOf_refused_iff.1 h
      exact .inr ⟨hr, hfull, (Fin.ext hp : p = 3) ▸ hphase, hi⟩
    · exact .inl hport
  · rintro (hport | ⟨hr, hfull, hphase, hi⟩)
    · exact .inr (.inr hport)
    · exact .inr (.inl ⟨3, hphase, accessOf_refused_iff.2 ⟨hi, rfl, hfull, hr⟩⟩)

/-! ### The phases of SEND_FRAME (R160) -/

/-- The flag that P0 takes from the word it reads is SENDING itself. -/
theorem sendFrameAccess_sample (b : BitVec 32) (l : BitVec 16) (s : State) : sendFrameAccess b l 0 s =
    .next { readStatus s with seq := if s.tc.sending then .phase .sendFrame 0 else .phase .sendFrame 1 } := by
  have hflag : sendingOf (readStatus s).scratch.s = s.tc.sending := sendingOf_statusWord s.tc
  simp only [sendFrameAccess, hflag]
  split <;> rfl

/-- P0, the transmit path idle. -/
theorem sendFrameAccess_pathIdle (b : BitVec 32) (l : BitVec 16) {s : State} (h : s.tc.sending = false) :
    sendFrameAccess b l 0 s = .next (goTo .sendFrame 1 (readStatus s)) := by
  rw [sendFrameAccess_sample, h]
  rfl

/-- P3, with room in the queue. -/
theorem sendFrameAccess_submits {b : BitVec 32} {l : BitVec 16} {s : State}
    (h : pendingCount s.bt < s.cfg.btQueueDepth) :
    sendFrameAccess b l 3 s = .next (complete 0 { regWrite .len (lenWord l) s with pendingSend := true }) :=
  submitThen_room (k := fun t => complete 0 { t with pendingSend := true }) h

/-- What a write of a count to BT.LEN submits. -/
theorem submit_lenWord (l : BitVec 16) (bt : Bt) : submit (lenWord l) bt =
    { bt with len := l.zeroExtend 32, done := false, queue := bt.queue ++ [⟨bt.src, bt.dst, l⟩] } := by
  rw [submit, lenWord_low]
  rfl

theorem encode_sendFrame_toNat (b : BitVec 32) (l : BitVec 16) :
    (encode (.sendFrame b l)).toNat = 0x3000000000000000 + l.toNat * 2 ^ 32 + b.toNat := by
  simp only [encode_toNat, Instr.op, Op.number, Instr.a1, Instr.a0, BitVec.ofNat_eq_ofNat, BitVec.toNat_ofNat]
  omega

/-- `s` with this TIMEOUT. -/
def withTimeout (x : BitVec 32) (s : State) : State := { s with timeout := x }

/-- `s` with SEND_FRAME issued and TIMEOUT computed. -/
def sendIssued (b : BitVec 32) (l : BitVec 16) (s : State) : State :=
  withTimeout (timeoutOf s.cfg l) (issue (.sendFrame b l) s)

theorem exec_sendFrame_issue {b : BitVec 32} {l : BitVec 16} {s : State} (hb : s.busy = false) :
    exec (.sendFrame b l) s = .next (sendIssued b l s) := exec_idle hb

theorem sendIssued_atPhase (b : BitVec 32) (l : BitVec 16) (s : State) : atPhase (.sendFrame b l) 0 (sendIssued b l s) :=
  ⟨rfl, latch_issue (.sendFrame b l) s, rfl⟩

/-- Settles O19: the word, the issue, and then each phase by its access. -/
theorem sendFrameFollowsItsPhases : Obligations.SendFrameFollowsItsPhases := by
  intro b l s
  have access {p : Fin 16} (h : atPhase (.sendFrame b l) p s) : exec (.sendFrame b l) s = sendFrameAccess b l p.val s :=
    exec_of_atPhase h
  refine ⟨encode_sendFrame_toNat b l, fun hb => ?issue, fun h => ?samples, access, access, fun h hroom => ?submits⟩
  case issue =>
    exact ⟨_, exec_sendFrame_issue hb, sendIssued_atPhase b l s, timeoutOf_toNat s.cfg l, rfl,
      onlyEngineChanged_refl _⟩
  case samples => exact (access h).trans (sendFrameAccess_sample b l s)
  case submits =>
    exact ⟨_, (access h).trans (sendFrameAccess_submits hroom), ⟨rfl, rfl, rfl, rfl⟩, rfl, submit_lenWord l s.bt, rfl, rfl,
      rfl, rfl, ⟨fun _ => rfl, rfl, rfl, rfl⟩, rfl⟩

/-! ### The frame of SEND_FRAME (R160) -/

/-- What the access at phase `p` of SEND_FRAME may change of the facade and the ghost bits: BT at its three writes, and
PENDING_SEND at P3. -/
structure SendFrameEffect (p : Nat) (s t : State) : Prop where
  tc : t.tc = s.tc := by rfl
  line : t.line = s.line := by rfl
  initDone : t.initDone = s.initDone := by rfl
  status : t.bt.status = s.bt.status := by rfl
  doneRest : t.bt.doneRest = s.bt.doneRest := by rfl
  active : t.bt.active = s.bt.active := by rfl
  bt : t.bt = s.bt ∨ p = 1 ∨ p = 2 ∨ p = 3
  pendingSend : t.pendingSend = s.pendingSend ∨ p = 3

theorem sendFrameAccess_effect (b : BitVec 32) (l : BitVec 16) (s : State) :
    ∀ p, Answers (SendFrameEffect p s) (sendFrameAccess b l p s)
  | 0 => .nextIte (fun _ => { bt := .inl rfl, pendingSend := .inl rfl })
    (fun _ => { bt := .inl rfl, pendingSend := .inl rfl })
  | 1 => .next { bt := .inr (.inl rfl), pendingSend := .inl rfl }
  | 2 => .next { bt := .inr (.inr (.inl rfl)), pendingSend := .inl rfl }
  | 3 => .submitThen (k := fun t => complete 0 { t with pendingSend := true }) fun _ =>
    { bt := .inr (.inr (.inr rfl)), pendingSend := .inr rfl }
  | _ + 4 => .fault

/-- SEND_FRAME's issue changes nothing of them, and each of its accesses only what it may. -/
theorem execSendFrame_effect {b : BitVec 32} {l : BitVec 16} {s t : State} (h : exec (.sendFrame b l) s = .next t) :
    ∃ p : Nat, SendFrameEffect p s t ∧ ∀ q : Fin 16, q ≠ 0 → p = q.val → s.seq = .phase .sendFrame q := by
  obtain ⟨-, h⟩ | ⟨p, -, -, hseq, h⟩ := exec_next_cases h
  · cases h
    exact ⟨0, { bt := .inl rfl, pendingSend := .inl rfl }, fun q hq h => absurd (Fin.ext h.symm) hq⟩
  · refine ⟨p.val, sendFrameAccess_effect b l s p t h, fun q _ hp => ?_⟩
    rw [hseq, show p = q from Fin.ext hp]
    rfl

/-- Settles O23: SEND_FRAME's own effect, and what every command leaves unchanged. -/
theorem sendFrameChangesOnlyTheSubmission : Obligations.SendFrameChangesOnlyTheSubmission := by
  intro b l s t h
  obtain ⟨p, effect, atWrite⟩ := execSendFrame_effect h
  have htimeout (hb : s.busy = true) : t.timeout = s.timeout := by
    obtain h | ⟨hb', -⟩ := exec_timeout h
    · exact h
    · exact absurd (hb'.symm.trans hb) Bool.false_ne_true
  exact ⟨effect.tc, effect.line, effect.initDone, effect.status, effect.doneRest, effect.active, htimeout,
    effect.bt.imp_right (Or.imp (atWrite 1 (by decide)) (Or.imp (atWrite 2 (by decide)) (atWrite 3 (by decide)))),
    effect.pendingSend.imp_right (atWrite 3 (by decide)), exec_res h, exec_outsideUnchanged h⟩

/-! ### The timeout calculator (R161) -/

/-- The greatest TIMEOUT is that of 16-bit operands all ones. -/
theorem timeoutOf_le (c : Config) (l : BitVec 16) : (timeoutOf c l).toNat ≤ 4294901760 := by
  have hl := l.isLt
  have hoffset := c.responseOffset.isLt
  have hlatency := c.latency.isLt
  have hproduct : l.toNat * c.responseOffset.toNat ≤ 65535 * 65535 := Nat.mul_le_mul (by omega) (by omega)
  rw [timeoutOf_toNat]
  omega

/-- R161's examples. -/
theorem timeoutOf_examples {c : Config} {l : BitVec 16} (hoffset : c.responseOffset = 20) (hlatency : c.latency = 13) :
    (l = 1 → timeoutOf c l = 33) ∧ (l = 8 → timeoutOf c l = 173) ∧ (l = 50 → timeoutOf c l = 1013) ∧
      (l = 65535 → timeoutOf c l = 1310713) := by
  simp only [timeoutOf, hoffset, hlatency]
  refine ⟨?_, ?_, ?_, ?_⟩ <;> rintro rfl <;> rfl

theorem ite_eq_withTimeout {c : Prop} [Decidable c] {x : BitVec 32} {t t' e e' : State} (ht : t' = withTimeout x t)
    (he : e' = withTimeout x e) : (if c then t' else e') = withTimeout x (if c then t else e) := by
  rw [ht, he, apply_ite (withTimeout x)]

/-- `f` neither uses nor changes TIMEOUT: with another value it answers the same, with that value. -/
def TimeoutFree (f : State → Result) : Prop :=
  ∀ s x, Answers (fun t => f (withTimeout x s) = .next (withTimeout x t)) (f s)

theorem TimeoutFree.next {g : State → State} (h : ∀ s x, g (withTimeout x s) = withTimeout x (g s)) :
    TimeoutFree fun s => .next (g s) :=
  fun s x => Answers.next (congrArg Host.Outcome.next (h s x))

theorem TimeoutFree.fault {r : Fault} : TimeoutFree fun _ => .fault r := fun _ _ => Answers.fault

theorem TimeoutFree.submitThen {v : BitVec 32} {k : State → State}
    (h : ∀ s x, k (withTimeout x s) = withTimeout x (k s)) : TimeoutFree (submitThen v k) :=
  fun s x => Answers.submitThen fun hroom =>
    (submitThen_room (s := withTimeout x s) hroom).trans (congrArg Host.Outcome.next (h (regWrite .len v s) x))

theorem regRead_withTimeout (r : ReadReg) (x : BitVec 32) (s : State) :
    regRead r (withTimeout x s) = withTimeout x (regRead r s) := by
  cases r with
  | rxData => exact ite_eq_withTimeout rfl rfl
  | status | done => rfl

theorem startOf_timeoutFree {i : Instr} (hi : i.op ≠ .sendFrame) : TimeoutFree (startOf i) := by
  cases i with
  | sendFrame b l => exact absurd rfl hi
  | receiveFrame b l => exact .next fun _ _ => ite_eq_withTimeout rfl rfl
  | _ => exact .next fun _ _ => rfl

/-- The accesses but P0 of RECEIVE_RESPONSE, by what they turn on: nothing, a flag or the clock, room in BT's queue, or
RESP_READ_CLEARS_READY. -/
theorem accessOf_timeoutFree : ∀ i p, (i.op = .receiveResponse → p ≠ 0) → TimeoutFree (accessOf i p)
  | .receiveResponse, 0, h => absurd rfl (h rfl)
  | .beginInit _, 0, _ | .beginInit _, 2, _ | .beginInit _, 3, _ | .beginInit _, 4, _ | .beginInit _, 5, _
  | .beginInit _, 6, _ | .beginInit _, 7, _ | .canStart, 0, _ | .sendFrame _ _, 1, _ | .sendFrame _ _, 2, _
  | .receiveFrame _ _, 1, _ | .receiveFrame _ _, 2, _ | .receiveFrame _ _, 5, _ | .receiveResponse, 1, _
  | .receiveResponse, 5, _ | .receiveResponse, 9, _ | .receiveResponse, 10, _ | .sendResponse _, 0, _
  | .handleCollision, 0, _ | .handleCollision, 1, _ => .next fun _ _ => rfl
  | .beginInit _, 1, _ | .sendFrame _ _, 0, _ | .receiveFrame _ _, 0, _ | .receiveFrame _ _, 4, _
  | .receiveResponse, 2, _ | .receiveResponse, 3, _ | .receiveResponse, 4, _ | .receiveResponse, 6, _
  | .receiveResponse, 7, _ | .sendResponse _, 1, _ | .handleCollision, 2, _ =>
    .next fun _ _ => ite_eq_withTimeout rfl rfl
  | .sendFrame _ _, 3, _ => .submitThen (k := fun t => complete 0 { t with pendingSend := true }) fun _ _ => rfl
  | .receiveFrame _ _, 3, _ => .submitThen (k := goTo .receiveFrame 4) fun _ _ => rfl
  | .receiveResponse, 8, _ => .next fun s x => by rw [regRead_withTimeout]; rfl
  | .beginInit _, _ + 8, _ | .canStart, _ + 1, _ | .sendFrame _ _, _ + 4, _ | .receiveFrame _ _, _ + 6, _
  | .receiveResponse, _ + 11, _ | .sendResponse _, _ + 2, _ | .handleCollision, _ + 3, _ | .backOff _, _, _
  | .getMaxAttempts, _, _ | .getReceiveTime, _, _ => .fault

/-- The issue of a SEND_FRAME overwrites TIMEOUT; every other step but P0 of RECEIVE_RESPONSE leaves it unused. -/
theorem exec_withTimeout {i : Instr} {s t : State} (x : BitVec 32) (h : exec i s = .next t)
    (huse : ¬ (s.busy = true ∧ s.seq = .phase .receiveResponse 0)) :
    exec i (withTimeout x s) = .next (withTimeout (if s.busy = false ∧ i.op = .sendFrame then t.timeout else x) t) := by
  obtain ⟨hb, h⟩ | ⟨p, hb, hl, hseq, h⟩ := exec_next_cases h
  · rw [exec_idle (s := withTimeout x s) hb]
    by_cases hi : i.op = .sendFrame
    · rw [if_pos ⟨hb, hi⟩]
      cases i <;> cases hi
      cases h
      rfl
    · rw [if_neg fun hsend => hi hsend.2]
      exact startOf_timeoutFree hi (issue i s) x t h
  · have hp (hi : i.op = .receiveResponse) : p.val ≠ 0 := fun hp =>
      huse ⟨hb, by rw [hseq, hi, show p = 0 from Fin.ext hp]⟩
    rw [exec_atPhase (s := withTimeout x s) hb hl hseq, if_neg (by simp [hb])]
    exact accessOf_timeoutFree i p hp s x t h

/-- Settles O21: the calculator's value with its bound and examples, and the step with another TIMEOUT. -/
theorem timeoutIsComputedAndUsedOnce : Obligations.TimeoutIsComputedAndUsedOnce :=
  ⟨fun _ l s hb => ⟨_, exec_sendFrame_issue hb, timeoutOf_toNat s.cfg l, timeoutOf_le s.cfg l, timeoutOf_examples⟩,
    fun _ _ _ x h huse => exec_withTimeout x h huse⟩

/-! ### A whole SEND_FRAME (R160) -/

/-- ENGINE's steps at a command go on from where the first leads. -/
theorem execSteps_of_exec {i : Instr} {n : Nat} {s t : State} {r : Result} (h : exec i s = .next t)
    (hrest : execSteps i n t = r) : execSteps i (n + 1) s = r := by
  rwa [execSteps, h]

/-- The bulk region as SEND_FRAME leaves it: the transfer (buffer, address of the axis/status word, length) submitted. -/
def submittedBt (c : Config) (b : BitVec 32) (l : BitVec 16) (bt : Bt) : Bt :=
  submit (lenWord l) { bt with src := b, dst := regAddr c .axisStatus }

/-- `s` with SEQ at a phase of SEND_FRAME, this bulk region and this record: the form in which the run below names its
states. -/
def sendAt (p : Fin 16) (bt : Bt) (shown : List Event) (s : State) : State :=
  { s with seq := .phase .sendFrame p, bt := bt, trace := shown }

section Writes
variable {b : BitVec 32} {l : BitVec 16} {s : State} {bt : Bt} {shown : List Event} (hb : s.busy = true)
  (hl : s.latch = latchOf (.sendFrame b l))
include hb hl

/-- ENGINE's step from a phase of SEND_FRAME. -/
theorem execSteps_sendAt {p : Fin 16} {n : Nat} {t : State} {r : Result}
    (h : sendFrameAccess b l p.val (sendAt p bt shown s) = .next t) (hrest : execSteps (.sendFrame b l) n t = r) :
    execSteps (.sendFrame b l) (n + 1) (sendAt p bt shown s) = r :=
  execSteps_of_exec ((exec_of_atPhase (s := sendAt p bt shown s) ⟨hb, hl, rfl⟩).trans h) hrest

/-- From P1 on, with room in the queue, three steps of ENGINE submit the frame and complete SEND_FRAME with 0. -/
theorem execSteps_sendFrame_writes (hroom : pendingCount bt < s.cfg.btQueueDepth) :
    ∃ shown', execSteps (.sendFrame b l) 3 (sendAt 1 bt shown s) =
      .next (complete 0 { sendAt 3 (submittedBt s.cfg b l bt) shown' s with pendingSend := true }) :=
  ⟨_, execSteps_sendAt hb hl (t := sendAt 2 { bt with src := b } (.wrote .src b :: shown) s) rfl <|
    execSteps_sendAt hb hl (t := sendAt 3 { bt with src := b, dst := regAddr s.cfg .axisStatus }
      (.wrote .dst (regAddr s.cfg .axisStatus) :: .wrote .src b :: shown) s) rfl <|
    execSteps_sendAt hb hl (sendFrameAccess_submits hroom) rfl⟩

end Writes

/-- Settles O20: the issue, the status read with the transmit path idle, and the three writes. -/
theorem sendFrameSubmitsTheFrame : Obligations.SendFrameSubmitsTheFrame := by
  intro b l s hb hidle hroom
  have hphase := sendIssued_atPhase b l s
  have hsample := (exec_of_atPhase hphase).trans (sendFrameAccess_pathIdle b l hidle)
  obtain ⟨hbusy, hlatch, -⟩ := hphase
  obtain ⟨shown, hwrites⟩ := execSteps_sendFrame_writes (s := readStatus (sendIssued b l s)) (bt := s.bt)
    (shown := .read .status (statusWord s.tc) :: .issued (encode (.sendFrame b l)) :: s.trace) hbusy hlatch hroom
  exact ⟨_, execSteps_of_exec (exec_sendFrame_issue hb) (execSteps_of_exec hsample hwrites), ⟨rfl, rfl, rfl, rfl⟩, rfl,
    timeoutOf_toNat s.cfg l, submit_lenWord l _, rfl, rfl, rfl, fun _ => rfl, rfl, rfl, rfl⟩

/-! ### Transfers outside the contract (R162; 60_exceptions.md R241; 20_memory.md R69) -/

theorem rangesMeet_comm {a b : BitVec 32} {n m : Nat} : rangesMeet a n b m ↔ rangesMeet b m a n :=
  ⟨fun ⟨i, j, hi, hj, h⟩ => ⟨j, i, hj, hi, h.symm⟩, fun ⟨i, j, hi, hj, h⟩ => ⟨j, i, hj, hi, h.symm⟩⟩

/-- A place `i` in one range and `j` in another that are the same address, with `j` no further than `i`: the other range
begins inside the first. -/
theorem inRange_of_meet {a b : BitVec 32} {n i j : Nat} (hn : n ≤ 2 ^ 32) (hi : i < n) (hji : j ≤ i)
    (h : a + BitVec.ofNat 32 i = b + BitVec.ofNat 32 j) : inRange a n b = true := by
  refine (inRange_iff hn b).2 ⟨i - j, by omega, ?_⟩
  have hsplit : BitVec.ofNat 32 i = BitVec.ofNat 32 (i - j) + BitVec.ofNat 32 j := by
    rw [← BitVec.ofNat_add, Nat.sub_add_cancel hji]
  rw [hsplit, ← BitVec.add_assoc] at h
  exact (add_right_cancel h).symm

/-- Two ranges, neither empty, meet exactly when one begins inside the other. -/
theorem rangesMeet_iff {a b : BitVec 32} {n m : Nat} (hn : n ≤ 2 ^ 32) (hm : m ≤ 2 ^ 32) (hn' : 1 ≤ n) (hm' : 1 ≤ m) :
    rangesMeet a n b m ↔ inRange a n b = true ∨ inRange b m a = true := by
  constructor
  · rintro ⟨i, j, hi, hj, h⟩
    obtain hji | hij := Nat.le_total j i
    · exact .inl (inRange_of_meet hn hi hji h)
    · exact .inr (inRange_of_meet hm hj hij h.symm)
  · rintro (h | h)
    · obtain ⟨i, hi, rfl⟩ := (inRange_iff hn b).1 h
      exact ⟨i, 0, hi, hm', by simp⟩
    · obtain ⟨j, hj, rfl⟩ := (inRange_iff hm a).1 h
      exact ⟨0, j, hn', hj, by simp⟩

/-- The transfer is outside the contract, clause by clause in the words of the spec (R162; R241; U1, U12). -/
def OutsideContract (c : Config) (x : Transfer) : Prop :=
  x.len = 0 ∨ 2 ^ 32 < x.src.toNat + x.len.toNat ∨
    (∃ r ∈ allRegs, rangesMeet x.src x.len.toNat (regAddr c r) 4) ∨
    (x.dst = c.tcBase + c.off.axisStatus ∧
      (c.maxPacketLen.toNat < x.len.toNat ∨ rangesMeet x.src x.len.toNat c.captureAddr c.maxPacketLen.toNat)) ∨
    (x.dst ≠ c.tcBase + c.off.axisStatus ∧
      (2 ^ 32 < x.dst.toNat + x.len.toNat ∨
        (∃ r ∈ allRegs, rangesMeet x.dst x.len.toNat (regAddr c r) 4) ∨
        rangesMeet x.src x.len.toNat x.dst x.len.toNat ∨
        rangesMeet x.dst x.len.toNat c.captureAddr c.maxPacketLen.toNat))

section Ranges
variable {c : Config} {a b : BitVec 32} {n : Nat}

theorem meetsRegisters_eq_false_iff (hn : n ≤ 2 ^ 32) :
    meetsRegisters c a n = false ↔ ¬ ∃ r ∈ allRegs, rangesMeet a n (regAddr c r) 4 := by
  simp only [← Bool.not_eq_true, meetsRegisters_iff c hn, rangesMeet_comm (a := a)]

theorem disjoint_iff (hn : n ≤ 2 ^ 32) (hn' : 1 ≤ n) : disjoint a b n = true ↔ ¬ rangesMeet a n b n := by
  simp only [disjoint, rangesMeet_iff hn hn hn' hn', Bool.and_eq_true, Bool.not_eq_true', not_or, Bool.not_eq_true]

theorem clearOfCapture_iff (hc : 1 ≤ c.maxPacketLen.toNat) (hn : n ≤ 2 ^ 32) (hn' : 1 ≤ n) :
    clearOfCapture c a n = true ↔ ¬ rangesMeet a n c.captureAddr c.maxPacketLen.toNat := by
  have hm : c.maxPacketLen.toNat ≤ 2 ^ 32 := c.maxPacketLen.isLt.le.trans (by decide)
  simp only [clearOfCapture, rangesMeet_iff hn hm hn' hc, Bool.and_eq_true, Bool.not_eq_true', not_or, Bool.not_eq_true]

end Ranges

/-- The model's test of a transfer is the contract. -/
theorem transferAllowed_iff_not_outsideContract {c : Config} (hc : 1 ≤ c.maxPacketLen.toNat) (x : Transfer) :
    transferAllowed c x = true ↔ ¬ OutsideContract c x := by
  have hlen : x.len.toNat ≤ 2 ^ 32 := x.len.isLt.le.trans (by decide)
  have hempty : x.len = 0 ↔ ¬ 1 ≤ x.len.toNat := by
    rw [← BitVec.toNat_inj]
    simp only [BitVec.ofNat_eq_ofNat, BitVec.toNat_ofNat, Nat.zero_mod]
    omega
  have hdst : regAddr c .axisStatus = c.tcBase + c.off.axisStatus := rfl
  rw [transferAllowed_iff, OutsideContract, hempty, hdst]
  by_cases hone : 1 ≤ x.len.toNat
  · rw [meetsRegisters_eq_false_iff hlen, meetsRegisters_eq_false_iff hlen, disjoint_iff hlen hone,
      clearOfCapture_iff hc hlen hone, clearOfCapture_iff hc hlen hone]
    by_cases hpath : x.dst = c.tcBase + c.off.axisStatus
    · rw [if_pos hpath]
      simp only [hone, hpath, ne_eq, not_true_eq_false, true_and, false_and, or_false, false_or, not_or, Nat.not_lt]
    · rw [if_neg hpath]
      simp only [hone, hpath, ne_eq, not_true_eq_false, not_false_eq_true, true_and, false_and, false_or, not_or,
        Nat.not_lt]
  · simp [hone]

/-! ### Only the step refuses a transfer -/

theorem exec_ne_transferOutsideContract (i : Instr) (s : State) : exec i s ≠ .refused .transferOutsideContract := by
  intro h
  obtain ⟨hr, -⟩ | ⟨hr, -⟩ := (commandsAreRefusedExactlyByPortAndQueue i s _).1 h <;> cases hr

theorem lineMove_ne_transferOutsideContract (m : LineMove) (s : State) :
    lineMove m s ≠ .refused .transferOutsideContract := by
  cases m with
  | flags | ready | response | hear | forget => nofun
  | unready | stageFrame | stage | sendWord | sendByte | config =>
    simp only [lineMove]
    split <;> nofun

theorem bulkMove_ne_transferOutsideContract (m : BulkMove) (s : State) :
    bulkMove m s ≠ .refused .transferOutsideContract := by
  cases m with
  | start =>
    simp only [bulkMove, bulkStart]
    split <;> nofun
  | read i =>
    simp only [bulkMove, bulkRead]
    split
    · split <;> nofun
    · nofun
  | write i =>
    simp only [bulkMove, bulkWrite]
    split
    · split
      · split <;> nofun
      · nofun
    · nofun
  | noise v d => nofun

/-- No move of any agent is refused for a transfer. -/
theorem takeMove_ne_transferOutsideContract (m : Move) (s : State) :
    takeMove m s ≠ .refused .transferOutsideContract := by
  cases m with
  | engine =>
    simp only [takeMove, engineTurn]
    split
    · split
      · exact exec_ne_transferOutsideContract _ s
      · nofun
    · nofun
  | issue w =>
    simp only [takeMove, issueTurn]
    split
    · nofun
    · split
      · exact exec_ne_transferOutsideContract _ s
      · nofun
  | hostWrite a b =>
    simp only [takeMove, hostWriteMove]
    split <;> nofun
  | line m => exact lineMove_ne_transferOutsideContract m s
  | bulk m => exact bulkMove_ne_transferOutsideContract m s
  | clock d =>
    simp only [takeMove, clockMove]
    split <;> nofun
  | reset => nofun

/-- The step is refused for a transfer exactly while a pending one is outside the contract. -/
theorem step_transferOutsideContract_iff {s : State} (ha : admitted s.cfg = true) :
    step s = .refused .transferOutsideContract ↔ ∃ x ∈ pendingTransfers s.bt, OutsideContract s.cfg x := by
  have hc : 1 ≤ s.cfg.maxPacketLen.toNat := by
    obtain ⟨-, -, hlen, -⟩ := (admitted_iff s.cfg).1 ha
    exact hlen
  have hallowed : pendingAllowed s = true ↔ ∀ x ∈ pendingTransfers s.bt, ¬ OutsideContract s.cfg x := by
    simp only [pendingAllowed, List.all_eq_true, transferAllowed_iff_not_outsideContract hc]
  by_cases hp : pendingAllowed s = true
  · rw [step_eq_takeMove ha hp]
    refine iff_of_false (takeMove_ne_transferOutsideContract _ _) ?_
    rintro ⟨x, hx, hout⟩
    exact hallowed.1 hp x hx hout
  · rw [step_eq_turnOf, turnOf, popMove_cfg, if_pos ha, pendingAllowed_popMove, if_neg hp]
    refine iff_of_true rfl ?_
    simpa only [hallowed, not_forall, not_not, exists_prop] using hp

/-- The transfers pending are the active one and those queued. -/
theorem mem_pendingTransfers_iff {x : Transfer} {bt : Bt} :
    x ∈ pendingTransfers bt ↔ (∃ a, bt.active = some a ∧ a.xfer = x) ∨ x ∈ bt.queue := by
  simp [pendingTransfers]

/-- Settles O41: the step's own test, and a SEND_FRAME whose transfer, once submitted, is outside the contract by its
length. -/
theorem transferOutsideTheContractEndsTheRun : Obligations.TransferOutsideTheContractEndsTheRun := by
  intro s ha
  refine ⟨?_, fun b l hb hidle hroom hlen => ?_⟩
  · simp only [step_transferOutsideContract_iff ha, mem_pendingTransfers_iff]
    rfl
  · obtain ⟨t, hrun, hdone, -, htimeout, hbt, -, -, -, -, -, hcfg, -⟩ := sendFrameSubmitsTheFrame b l s hb hidle hroom
    refine ⟨t, hrun, hdone, htimeout, (step_transferOutsideContract_iff (hcfg ▸ ha)).2 ?_⟩
    refine ⟨⟨b, s.cfg.tcBase + s.cfg.off.axisStatus, l⟩, mem_pendingTransfers_iff.2 (.inr (by simp [hbt])), ?_⟩
    rw [hcfg]
    obtain hzero | hlong := hlen
    · exact .inl hzero
    · exact .inr (.inr (.inr (.inl ⟨rfl, .inl hlong⟩)))

end Sys2Proof.Machine
end

section
/-! PROOFS. The family 43_response_exchange: the words of RECEIVE_RESPONSE and SEND_RESPONSE, their bounded polls and their
phases, what they leave unchanged, what a RECEIVE_RESPONSE shows, and whole runs of both
(43_response_exchange.md R175 to R179). -/

namespace Sys2Proof.Machine

/-! ### The words the two commands send (30_encoding.md R110, R111) -/

/-- The marker word is its payload byte with bit 10 above it. -/
theorem markerWord_eq_append (rep : Nat) : markerWord rep = 4#24 ++ BitVec.ofNat 8 rep := by
  rw [BitVec.append_def, BitVec.or_comm]
  rfl

theorem markerWord_toNat (rep : Nat) : (markerWord rep).toNat = rep % 256 + 1024 := by
  rw [markerWord_eq_append, toNat_append_eq_add, BitVec.toNat_ofNat, BitVec.toNat_ofNat]
  omega

/-- The marker word asks for an acknowledgement and is no response. -/
theorem markerWord_bits (rep : Nat) :
    (markerWord rep).getLsbD 10 = true ∧ (markerWord rep).getLsbD 9 = false ∧ (markerWord rep).getLsbD 8 = false := by
  rw [markerWord_eq_append]
  exact ⟨BitVec.getLsbD_append, BitVec.getLsbD_append, BitVec.getLsbD_append⟩

/-- The response word is the byte with bits 8 and 9 above it. -/
theorem responseWord_toNat (v : BitVec 8) : (responseWord v).toNat = v.toNat + 768 := by
  have happend : responseWord v = 3#24 ++ v := by
    rw [BitVec.append_def, BitVec.or_comm, responseWord, BitVec.or_assoc]
    rfl
  rw [happend, toNat_append_eq_add, BitVec.toNat_ofNat]
  omega

theorem encode_sendResponse_toNat (v : BitVec 8) :
    (encode (.sendResponse v)).toNat = 0x6000000000000000 + v.toNat * 2 ^ 32 := by
  have hsum := encode_toNat (.sendResponse v)
  have ha1 : (Instr.sendResponse v).a1.toNat = v.toNat := BitVec.toNat_setWidth_of_le (by decide)
  have hop : (Instr.sendResponse v).op.number.toNat = 6 := rfl
  have ha0 : (Instr.sendResponse v).a0.toNat = 0 := rfl
  omega

/-- The result of RECEIVE_RESPONSE is the low byte of the word read. -/
theorem responseResult_toNat (v : BitVec 32) :
    ((responseByteOf v).zeroExtend 64).toNat = v.toNat % 256 := by
  have hwide : ((responseByteOf v).zeroExtend 64).toNat = (responseByteOf v).toNat :=
    BitVec.toNat_setWidth_of_le (by decide)
  rw [hwide, responseByteOf, BitVec.extractLsb'_toNat, Nat.shiftRight_zero]

/-- A phase is known by its number. -/
theorem atPhase.seq_eq {i : Instr} {p : Fin 16} {s : State} (h : atPhase i p s) (q : Fin 16) (hp : p.val = q.val) :
    s.seq = .phase i.op q := by
  obtain ⟨-, -, hseq⟩ := h
  rw [hseq, Fin.ext hp]

/-! ### A bounded poll (R176, R178) -/

/-- Phase `p` of the command `i` is a bounded poll: each access reads the status word, and the poll goes on to `k` when `c`
holds of the facade or the bound is met. -/
def Polls (i : Instr) (p : Fin 16) (c : Tc → Bool) (k : State → State) : Prop :=
  ∀ s, accessOf i p.val s =
    .next (if c s.tc || boundMet (pollStatus s) then k (pollStatus s) else goTo i.op p (pollStatus s))

/-- W1: the marker starts. -/
theorem polls_start : Polls .receiveResponse 2 Tc.sending fun t => goTo .receiveResponse 3 (setCnt 0 t) := by
  intro s
  rw [← sendingOf_statusWord]
  rfl

/-- W2: sending finishes. -/
theorem polls_sent : Polls .receiveResponse 3 (fun tc => !tc.sending) fun t => goTo .receiveResponse 4 (setCnt 0 t) := by
  intro s
  simp only [← sendingOf_statusWord]
  rfl

/-- W3: reception finishes. -/
theorem polls_received : Polls .receiveResponse 4 (fun tc => !tc.receiving) (goTo .receiveResponse 5) := by
  intro s
  simp only [← receivingOf_statusWord]
  rfl

/-- P1 of SEND_RESPONSE: the command is accepted. -/
theorem polls_accepted (v : BitVec 8) : Polls (.sendResponse v) 1 Tc.sendDone (complete 0) := by
  intro s
  rw [← sendDoneOf_statusWord]
  rfl

theorem boundMet_pollStatus (s : State) : boundMet (pollStatus s) = true ↔ s.scratch.cnt + 1 = s.cfg.pollBound :=
  beq_iff_eq

section Poll
variable {i : Instr} {p : Fin 16} {c : Tc → Bool} {k : State → State} {s : State}

/-- The read that ends the poll. -/
theorem Polls.access_ends (h : Polls i p c k) (hc : c s.tc = true ∨ s.scratch.cnt + 1 = s.cfg.pollBound) :
    accessOf i p.val s = .next (k (pollStatus s)) := by
  rw [h s, if_pos (by rwa [Bool.or_eq_true, boundMet_pollStatus])]

/-- The read after which the poll goes on. -/
theorem Polls.access_repeats (h : Polls i p c k) (hseq : s.seq = .phase i.op p) (hc : c s.tc = false)
    (hbound : s.scratch.cnt + 1 ≠ s.cfg.pollBound) : accessOf i p.val s = .next (pollStatus s) := by
  rw [h s, if_neg (by rw [Bool.or_eq_true, boundMet_pollStatus, hc]; simpa using hbound), goTo_self (by exact hseq)]

theorem Polls.ends (h : Polls i p c k) (hs : atPhase i p s) (hc : c s.tc = true ∨ s.scratch.cnt + 1 = s.cfg.pollBound) :
    exec i s = .next (k (pollStatus s)) :=
  (exec_of_atPhase hs).trans (h.access_ends hc)

theorem Polls.repeats (h : Polls i p c k) (hs : atPhase i p s) (hc : c s.tc = false)
    (hbound : s.scratch.cnt + 1 ≠ s.cfg.pollBound) : exec i s = .next (pollStatus s) :=
  (exec_of_atPhase hs).trans (h.access_repeats (hs.seq_eq p rfl) hc hbound)

end Poll

/-! ### The phases of SEND_RESPONSE (R178) -/

/-- Settles O31: the word, the issue, the response word, and the poll's last and earlier reads. -/
theorem sendResponseFollowsItsPhases : Obligations.SendResponseFollowsItsPhases := by
  intro v s
  refine ⟨encode_sendResponse_toNat v, fun hb => exec_issues hb rfl, fun h => ?sends, fun h hends => ?ends,
    (polls_accepted v).repeats⟩
  case sends => exact ⟨_, responseWord v, exec_of_atPhase h, responseWord_toNat v, rfl⟩
  case ends => exact ⟨_, (polls_accepted v).ends h hends, ⟨rfl, rfl, rfl, rfl⟩, onlyEngineChanged_refl s, rfl⟩

/-! ### The phases of RECEIVE_RESPONSE (R175, R176) -/

/-- Where SEQ goes by a condition, nothing else does. -/
theorem ite_goTo (c : Prop) [Decidable c] (op : Op) (p q : Fin 16) (t : State) :
    (if c then goTo op p t else goTo op q t) = { t with seq := if c then .phase op p else .phase op q } := by
  split <;> rfl

/-- P6 goes by DATA_READY, the flag in the word it reads. -/
theorem receiveResponseAccess_ready (s : State) : receiveResponseAccess 6 s = .next { readStatus s with
    seq := if s.tc.dataReady then .phase .receiveResponse 8 else .phase .receiveResponse 7 } := by
  rw [← dataReadyOf_statusWord s.tc, ← ite_goTo]
  rfl

/-- P7 goes by the time that has passed since P5. -/
theorem receiveResponseAccess_window (s : State) : receiveResponseAccess 7 s = .next { s with
    seq := if s.scratch.t0.toNat + 1000 ≤ s.now.toNat then .phase .receiveResponse 10
      else .phase .receiveResponse 6 } := by
  rw [← ite_goTo]
  exact congrArg _ (if_congr (elapsed_iff _ s) rfl rfl)

/-- P8 reads TC.RX_DATA. -/
theorem receiveResponseAccess_collects (s : State) : receiveResponseAccess 8 s = .next { s with
    tc := { s.tc with dataReady := s.tc.dataReady && !s.cfg.respReadClearsReady }
    scratch := { s.scratch with v := s.tc.rxData }
    seq := .phase .receiveResponse 9
    trace := .read .rxData s.tc.rxData :: s.trace } := by
  rw [← regRead_rxData_tc]
  exact congrArg (fun t => Host.Outcome.next (goTo .receiveResponse 9 (setV (regValue .rxData s) t)))
    (regRead_frame .rxData s)

/-- Settles O24: the word, the issue, and then each phase by its access. -/
theorem receiveResponseFollowsItsPhases : Obligations.ReceiveResponseFollowsItsPhases := by
  refine ⟨rfl, fun s => ⟨fun hb => exec_issues hb rfl, exec_of_atPhase, fun h => ?marker, polls_start.ends,
    polls_start.repeats, fun h hends => polls_sent.ends h (hends.imp_left (congrArg not)),
    fun h hsending => polls_sent.repeats h (congrArg not hsending),
    fun h hends => polls_received.ends h (hends.imp_left (congrArg not)),
    fun h hreceiving => polls_received.repeats h (congrArg not hreceiving), exec_of_atPhase, fun h => ?ready,
    fun h => ?window, fun h => ?collects, fun h => ?byte, fun h => ?fail⟩⟩
  case marker => exact ⟨_, markerWord s.scratch.rep, exec_of_atPhase h, markerWord_toNat _, rfl⟩
  case ready => exact (exec_of_atPhase h).trans (receiveResponseAccess_ready s)
  case window => exact (exec_of_atPhase h).trans (receiveResponseAccess_window s)
  case collects => exact (exec_of_atPhase h).trans (receiveResponseAccess_collects s)
  case byte =>
    exact ⟨_, exec_of_atPhase h, ⟨rfl, rfl, rfl, rfl⟩, responseResult_toNat _, onlyEngineChanged_refl _, rfl⟩
  case fail => exact ⟨_, exec_of_atPhase h, ⟨rfl, rfl, rfl, rfl⟩, onlyEngineChanged_refl _, rfl⟩

/-! ### The repetition count (R175) -/

theorem repDivisor_pos {c : Config} (h : admitted c = true) : 1 ≤ repDivisor c := by
  obtain ⟨-, -, -, -, hdivisor, -⟩ := (admitted_iff c).1 h
  exact hdivisor

/-- The margin alone is left exactly when TIMEOUT is below the divisor. -/
theorem repetitionsOf_eq_two_iff {c : Config} (h : admitted c = true) (timeout : BitVec 32) :
    repetitionsOf c timeout = 2 ↔ timeout.toNat < repDivisor c := by
  have hzero : timeout.toNat / repDivisor c = 0 ↔ timeout.toNat < repDivisor c :=
    Nat.div_eq_zero_iff_lt (repDivisor_pos h)
  rw [← hzero, repetitionsOf]
  omega

/-- The TIMEOUT of a frame no longer than MAX_PACKET_LEN gives a count that a byte holds. -/
theorem repetitionsOf_timeoutOf_le {c : Config} (h : admitted c = true) {l : BitVec 16}
    (hl : l.toNat ≤ c.maxPacketLen.toNat) : repetitionsOf c (timeoutOf c l) ≤ 255 := by
  obtain ⟨-, -, -, -, -, hlongest, -⟩ := (admitted_iff c).1 h
  refine le_trans ?_ hlongest
  rw [repetitionsOf, timeoutOf_toNat]
  gcongr

/-- Settles O25: P0 sets REP to the count, whose bounds are those of the quotient. -/
theorem repetitionCountIsTheRoundedQuotient : Obligations.RepetitionCountIsTheRoundedQuotient := by
  refine ⟨fun s ha h => ⟨repDivisor_pos ha, _, exec_of_atPhase h, rfl, Nat.le_add_left 2 _,
    repetitionsOf_eq_two_iff ha s.timeout, fun l hl htimeout => ?_⟩, fun c hspacer hwidth => ?_,
    fun c hspacer hwidth => ?_⟩
  · have hle := repetitionsOf_timeoutOf_le ha hl
    rwa [← htimeout] at hle
  all_goals
    simp only [repetitionsOf, repDivisor, hspacer, hwidth]
    decide

/-! ### What the two commands leave unchanged (R176, R178) -/

theorem exec_keeps_timeout {i : Instr} {s t : State} (hi : i.op ≠ .sendFrame) (h : exec i s = .next t) :
    t.timeout = s.timeout := by
  obtain h | ⟨-, b, l, rfl, -⟩ := exec_timeout h
  · exact h
  · exact absurd rfl hi

/-- What a command but SEND_FRAME answers: it is issued and nothing but the engine changes, or it makes the access of its
phase. -/
theorem exec_issued_or_access {i : Instr} {s t : State} (hi : i.op ≠ .sendFrame) (h : exec i s = .next t) :
    (s.busy = false ∧ onlyEngineChanged s t) ∨ ∃ p : Fin 16, atPhase i p s ∧ accessOf i p.val s = .next t := by
  obtain ⟨hb, h⟩ | ⟨p, hb, hl, hseq, h⟩ := exec_next_cases h
  · exact .inl ⟨hb, (startOf_next h).onlyEngineChanged hi⟩
  · exact .inr ⟨p, ⟨hb, hl, hseq⟩, h⟩

/-- What the access at phase `p` of RECEIVE_RESPONSE may change of TC, LINE and the ghost bits; whether it
goes on, T0 being set at P5 alone, or ends the command; and when it ends the window. -/
structure ResponseEffect (p : Nat) (s t : State) : Prop where
  tc : t.tc = { s.tc with activateRx := t.tc.activateRx, dataReady := t.tc.dataReady } := by simp [exchangeDone]
  dataReady : t.tc.dataReady = s.tc.dataReady ∨ p = 8 := by simp [exchangeDone]
  activateRx : t.tc.activateRx = s.tc.activateRx ∨ p = 0 ∨ p = 9 ∨ p = 10 := by simp [exchangeDone]
  bt : t.bt = s.bt := by simp [exchangeDone]
  initDone : t.initDone = s.initDone := by simp [exchangeDone]
  line : t.line = s.line ∨ p = 1 ∧ ∃ m, t.line = { s.line with txWords := s.line.txWords ++ [m] } := by simp [exchangeDone]
  pendingSend : t.pendingSend = s.pendingSend ∨ t.busy = false := by simp [exchangeDone]
  goes : (t.busy = s.busy ∧ t.scratch.t0 = if p = 5 then s.now else s.scratch.t0) ∨
    t.busy = false ∧ (p = 9 ∨ p = 10) := by simp [exchangeDone]
  window : t.seq = .phase .receiveResponse 10 → p = 7 ∧ s.scratch.t0.toNat + 1000 ≤ s.now.toNat := by simp [exchangeDone]

theorem receiveResponseAccess_effect (s : State) : ∀ p, Answers (ResponseEffect p s) (receiveResponseAccess p s)
  | 0 => .next { activateRx := .inr (.inl rfl) }
  | 1 => .next { line := .inr ⟨rfl, _, rfl⟩ }
  | 2 | 3 | 4 | 6 => .nextIte (fun _ => {}) (fun _ => {})
  | 5 => .next {}
  | 7 => .nextIte (fun h => { window := fun _ => ⟨rfl, (elapsed_iff _ s).1 h⟩ }) (fun _ => {})
  | 8 => by
    rw [receiveResponseAccess_collects]
    exact .next { dataReady := .inr rfl }
  | 9 => .next { activateRx := .inr (.inr (.inl rfl)), pendingSend := .inr rfl, goes := .inr ⟨rfl, .inl rfl⟩ }
  | 10 => .next { activateRx := .inr (.inr (.inr rfl)), pendingSend := .inr rfl, goes := .inr ⟨rfl, .inr rfl⟩ }
  | _ + 11 => .fault

/-- Settles O30: the issue changes the engine alone, each access only what it may, and every command leaves the rest. -/
theorem receiveResponseChangesOnlyCaptureAndMarker : Obligations.ReceiveResponseChangesOnlyCaptureAndMarker := by
  intro s t h
  have htimeout := exec_keeps_timeout (by decide) h
  have hres := exec_res h
  have houtside := exec_outsideUnchanged h
  obtain ⟨-, -, htc, hbt, hline, hinit, hpending, -⟩ | ⟨p, hphase, h⟩ := exec_issued_or_access (by decide) h
  · exact ⟨by rw [htc], .inl (by rw [htc]), .inl (by rw [htc]), hbt, htimeout, hinit, by rw [hline], by rw [hline],
      .inl (by rw [hline]), .inl hpending, hres, houtside⟩
  · have effect := receiveResponseAccess_effect s p t h
    refine ⟨effect.tc, effect.dataReady.imp_right (hphase.seq_eq 8),
      effect.activateRx.imp_right (.imp (hphase.seq_eq 0) (.imp (hphase.seq_eq 9) (hphase.seq_eq 10))),
      effect.bt, htimeout, effect.initDone, ?_, ?_, ?_, effect.pendingSend, hres, houtside⟩
    all_goals obtain hline | ⟨hp, m, hline⟩ := effect.line <;> rw [hline]
    · exact .inl rfl
    · exact .inr ⟨hphase.seq_eq 1 hp, m, rfl⟩

/-- What the access at phase `p` of SEND_RESPONSE may change of TC, BT, LINE and the ghost bits: a word is added at P0. -/
structure AcknowledgeEffect (p : Nat) (s t : State) : Prop where
  tc : t.tc = s.tc := by rfl
  bt : t.bt = s.bt := by rfl
  initDone : t.initDone = s.initDone := by rfl
  pendingSend : t.pendingSend = s.pendingSend := by rfl
  line : t.line = s.line ∨ p = 0 ∧ ∃ m, t.line = { s.line with txWords := s.line.txWords ++ [m] } := by exact .inl rfl

theorem sendResponseAccess_effect (v : BitVec 8) (s : State) :
    ∀ p, Answers (AcknowledgeEffect p s) (sendResponseAccess v p s)
  | 0 => .next { line := .inr ⟨rfl, _, rfl⟩ }
  | 1 => .nextIte (fun _ => {}) (fun _ => {})
  | _ + 2 => .fault

/-- Settles O34: the issue changes the engine alone, each access only what it may, and every command leaves the rest. -/
theorem sendResponseChangesOnlyTheTransmitPath : Obligations.SendResponseChangesOnlyTheTransmitPath := by
  intro v s t h
  have htimeout := exec_keeps_timeout (by simp [Instr.op]) h
  have hres := exec_res h
  have houtside := exec_outsideUnchanged h
  obtain ⟨-, -, htc, hbt, hline, hinit, hpending, -⟩ | ⟨p, hphase, h⟩ := exec_issued_or_access (by simp [Instr.op]) h
  · exact ⟨htc, hbt, htimeout, hinit, hpending, by rw [hline], by rw [hline], .inl (by rw [hline]), hres, houtside⟩
  · have effect := sendResponseAccess_effect v s p t h
    refine ⟨effect.tc, effect.bt, htimeout, effect.initDone, effect.pendingSend, ?_, ?_, ?_, hres, houtside⟩
    all_goals obtain hline | ⟨hp, m, hline⟩ := effect.line <;> rw [hline]
    · exact .inl rfl
    · exact .inr ⟨hphase.seq_eq 0 hp, m, rfl⟩

/-! ### What a RECEIVE_RESPONSE in flight has shown (R177) -/

/-- Since the issue the run shows ACTIVATE_RX <- 0, the one marker word `m`, and then only the reads `reads`. -/
structure Shows (reads : List Event) (m : BitVec 32) (s : State) : Prop where
  since : sinceIssue s.trace = reads ++ [.wrote .txCmd m, .wrote .activateRx 0]
  onlyReads : reads.all isRead = true
  marker : m.getLsbD 10 = true ∧ m.getLsbD 9 = false ∧ m.getLsbD 8 = false

/-- The same, with at least `n` status reads and none of TC.RX_DATA. -/
def Polled (n : Nat) (s : State) : Prop :=
  ∃ reads m, Shows reads m s ∧ n ≤ readsOf .status reads ∧ readsOf .rxData reads = 0

section Shown
variable {s t : State} {n : Nat} {reads : List Event} {m : BitVec 32}

theorem Shows.of_trace_eq (h : Shows reads m s) (ht : t.trace = s.trace) : Shows reads m t :=
  ⟨ht ▸ h.since, h.onlyReads, h.marker⟩

theorem Shows.read (h : Shows reads m s) {r : ReadReg} {v : BitVec 32} (ht : t.trace = .read r v :: s.trace) :
    Shows (.read r v :: reads) m t :=
  ⟨by rw [ht, sinceIssue, h.since, List.cons_append], h.onlyReads, h.marker⟩

theorem Polled.of_trace_eq (h : Polled n s) (ht : t.trace = s.trace) : Polled n t := by
  obtain ⟨reads, m, hshows, hcounts⟩ := h
  exact ⟨reads, m, hshows.of_trace_eq ht, hcounts⟩

theorem Polled.statusRead (h : Polled n s) {v : BitVec 32} (ht : t.trace = .read .status v :: s.trace) :
    Polled (n + 1) t := by
  obtain ⟨reads, m, hshows, hstatus, hrx⟩ := h
  refine ⟨_, m, hshows.read ht, ?_, ?_⟩
  · simp only [readsOf, if_true]
    omega
  · simpa [readsOf] using hrx

end Shown

/-- From P2 on the record is the request and reads, with what each phase adds. -/
theorem responseSoFar_iff {q : Nat} (hq : 2 ≤ q) (s : State) : responseSoFar q s ↔ ∃ reads m, Shows reads m s ∧
    statusFloor q ≤ readsOf .status reads ∧ (q ≠ 9 → readsOf .rxData reads = 0) ∧
    (q = 8 → ∃ v rest, reads = .read .status v :: rest ∧ dataReadyOf v = true) ∧
    (q = 9 → ∃ w v rest, reads = .read .rxData w :: .read .status v :: rest ∧ dataReadyOf v = true ∧
      readsOf .rxData rest = 0) ∧
    (q = 10 → s.scratch.t0.toNat + responsePollBoundUs ≤ s.now.toNat) := by
  obtain ⟨k, rfl⟩ := Nat.exists_eq_add_of_le' hq
  refine exists_congr fun reads => exists_congr fun m => ?_
  constructor
  · rintro ⟨hsince, honly, h10, h9, h8, hrest⟩
    exact ⟨⟨hsince, honly, h10, h9, h8⟩, hrest⟩
  · rintro ⟨⟨hsince, honly, h10, h9, h8⟩, hrest⟩
    exact ⟨hsince, honly, h10, h9, h8, hrest⟩

theorem responseSoFar.polled {q : Nat} {s : State} (h : responseSoFar q s) (hq : 2 ≤ q) (h9 : q ≠ 9) :
    Polled (statusFloor q) s := by
  obtain ⟨reads, m, hshows, hstatus, hrx, -⟩ := (responseSoFar_iff hq s).1 h
  exact ⟨reads, m, hshows, hstatus, hrx h9⟩

/-- P6 leads to P8 by a status read that shows DATA_READY. -/
theorem Polled.ready {s t : State} {v : BitVec 32} (h : Polled 3 s) (ht : t.trace = .read .status v :: s.trace)
    (hv : dataReadyOf v = true) : responseSoFar 8 t := by
  obtain ⟨reads, m, hshows, hstatus, hrx⟩ := h
  refine (responseSoFar_iff (by decide) t).2 ⟨_, m, hshows.read ht, ?_, fun _ => ?_, fun _ => ⟨v, reads, rfl, hv⟩,
    nofun, nofun⟩
  · simp only [statusFloor, readsOf, if_true]
    omega
  · simpa [readsOf] using hrx

/-- P7 leads to P10 once the window has passed. -/
theorem Polled.windowPassed {s : State} (h : Polled 4 s)
    (hpassed : s.scratch.t0.toNat + responsePollBoundUs ≤ s.now.toNat) : responseSoFar 10 s := by
  obtain ⟨reads, m, hshows, hstatus, hrx⟩ := h
  exact (responseSoFar_iff (by decide) s).2 ⟨reads, m, hshows, hstatus, fun _ => hrx, nofun, nofun, fun _ => hpassed⟩

/-- P8 leads to P9 by the one read of TC.RX_DATA. -/
theorem responseSoFar.collects {s t : State} {w : BitVec 32} (h : responseSoFar 8 s)
    (ht : t.trace = .read .rxData w :: s.trace) : responseSoFar 9 t := by
  obtain ⟨reads, m, hshows, hstatus, hrx, hready, -⟩ := (responseSoFar_iff (by decide) s).1 h
  obtain ⟨v, rest, rfl, hv⟩ := hready rfl
  refine (responseSoFar_iff (by decide) t).2 ⟨_, m, hshows.read ht, ?_, fun h => absurd rfl h, nofun,
    fun _ => ⟨w, v, rest, rfl, hv, ?_⟩, nofun⟩
  · simpa [readsOf, statusFloor] using hstatus
  · simpa [readsOf] using hrx

/-- P1 leads to P2 by the write of the marker word. -/
theorem polled_of_marker {s t : State} {rep : Nat} (h : responseSoFar 1 s)
    (ht : t.trace = .wrote .txCmd (markerWord rep) :: s.trace) : Polled 0 t :=
  ⟨[], markerWord rep, ⟨by rw [ht, sinceIssue, show sinceIssue s.trace = _ from h]; rfl, rfl, markerWord_bits rep⟩,
    Nat.zero_le _, rfl⟩

/-- The record at the phase SEQ goes to is all that is asked. -/
theorem responseInv_goTo {q : Fin 16} {s : State} (h : responseSoFar q.val (goTo .receiveResponse q s)) :
    responseInv (goTo .receiveResponse q s) := by
  intro p hp
  rw [goTo_seq, Seq.phase.injEq] at hp
  exact hp.2 ▸ h

/-- At P2 to P7 no more is asked than enough status reads. -/
theorem Polled.goTo {n : Nat} {s : State} (h : Polled n s) (q : Fin 16)
    (hq : 2 ≤ q.val ∧ q.val ≤ 7 ∧ statusFloor q.val ≤ n := by decide) : responseInv (goTo .receiveResponse q s) := by
  obtain ⟨reads, m, hshows, hstatus, hrx⟩ := h
  obtain ⟨hlow, hhigh, hfloor⟩ := hq
  exact responseInv_goTo ((responseSoFar_iff hlow _).2
    ⟨reads, m, hshows.of_trace_eq rfl, hfloor.trans hstatus, fun _ => hrx, by omega, by omega, by omega⟩)

/-- Where no RECEIVE_RESPONSE is in flight nothing is asked. -/
theorem responseInv_of_seq_ne {s : State} (h : ∀ p, s.seq ≠ .phase .receiveResponse p) : responseInv s :=
  fun p hp => absurd hp (h p)

/-- Each access shows what the phase it leads to asks. -/
theorem receiveResponseAccess_shows (s : State) : ∀ p, responseSoFar p s → Answers responseInv (receiveResponseAccess p s)
  | 0, h => .next (responseInv_goTo (congrArg (List.cons _) h))
  | 1, h => .next ((polled_of_marker h rfl).goTo 2)
  | 2, h =>
    have hread := (h.polled (by decide) (by decide)).statusRead (t := pollStatus s) rfl
    .nextIte (fun _ => (hread.of_trace_eq rfl).goTo 3) (fun _ => hread.goTo 2)
  | 3, h =>
    have hread := (h.polled (by decide) (by decide)).statusRead (t := pollStatus s) rfl
    .nextIte (fun _ => (hread.of_trace_eq rfl).goTo 4) (fun _ => hread.goTo 3)
  | 4, h =>
    have hread := (h.polled (by decide) (by decide)).statusRead (t := pollStatus s) rfl
    .nextIte (fun _ => hread.goTo 5) (fun _ => hread.goTo 4)
  | 5, h => .next (((h.polled (by decide) (by decide)).of_trace_eq (t := setT0 s) rfl).goTo 6)
  | 6, h =>
    have hpolled := h.polled (by decide) (by decide)
    .nextIte (fun hready => responseInv_goTo (hpolled.ready rfl hready))
      (fun _ => (hpolled.statusRead (t := readStatus s) rfl).goTo 7)
  | 7, h =>
    have hpolled := h.polled (by decide) (by decide)
    .nextIte (fun hpassed => responseInv_goTo ((hpolled.of_trace_eq rfl).windowPassed ((elapsed_iff _ s).1 hpassed)))
      (fun _ => hpolled.goTo 6)
  | 8, h => .next (responseInv_goTo (h.collects (regRead_trace .rxData s)))
  | 9, _ | 10, _ => .next (responseInv_of_seq_ne nofun)
  | _ + 11, _ => .fault

/-- The issue starts an empty record, and each access of a RECEIVE_RESPONSE adds to it as its phase says. -/
theorem exec_responseInv {i : Instr} {s t : State} (h : exec i s = .next t) (hs : responseInv s) : responseInv t := by
  obtain ⟨-, h⟩ | ⟨p, hb, hl, hseq, h⟩ := exec_next_cases h
  · have hissued : responseInv (issue i s) := by
      intro p hp
      rw [issue_seq, Seq.phase.injEq] at hp
      rw [← hp.2]
      rfl
    cases startOf_next h with
    | ends v => exact responseInv_of_seq_ne nofun
    | goes => exact hissued
    | delays d => exact hissued
    | sends b l hi => exact hissued
  · by_cases hi : i.op = .receiveResponse
    · cases i <;> cases hi
      exact receiveResponseAccess_shows s p (hs p hseq) t h
    · cases accessOf_next h with
      | goes q effect =>
        refine responseInv_of_seq_ne fun r hr => hi ?_
        rw [goTo_seq, Seq.phase.injEq] at hr
        exact hr.1
      | ends v effect => exact responseInv_of_seq_ne nofun

/-- The record asks nothing but the events shown and, at P10, the time passed. -/
theorem responseSoFar_of_eq {s t : State} (htrace : t.trace = s.trace) (hscratch : t.scratch = s.scratch)
    (hnow : s.now.toNat ≤ t.now.toNat) : ∀ p, responseSoFar p s → responseSoFar p t
  | 0, h | 1, h => (congrArg sinceIssue htrace).trans h
  | p + 2, h => by
    obtain ⟨reads, m, hshows, hstatus, hrx, hready, hcollected, hwindow⟩ := (responseSoFar_iff (by omega) s).1 h
    exact (responseSoFar_iff (by omega) t).2 ⟨reads, m, hshows.of_trace_eq htrace, hstatus, hrx, hready, hcollected,
      fun hp => hscratch ▸ (hwindow hp).trans hnow⟩

/-- What stands where it stood, with nothing shown and no time taken back, keeps the record. -/
theorem responseInv_of_eq {s t : State} (hs : responseInv s) (hseq : t.seq = s.seq) (htrace : t.trace = s.trace)
    (hscratch : t.scratch = s.scratch) (hnow : s.now.toNat ≤ t.now.toNat) : responseInv t :=
  fun p hp => responseSoFar_of_eq htrace hscratch hnow p.val (hs p (hseq ▸ hp))

/-- Settles O29: of all moves only the issue and the accesses of a command in flight show anything or move SEQ, but for the
completion of a RESERVED word and the reset, after which no command is in flight. -/
theorem everyStepKeepsTheResponseRecord : Obligations.EveryStepKeepsTheResponseRecord := by
  intro s t hs hstep
  obtain ⟨-, -, hmove⟩ := step_next hstep
  have hpop : responseInv (popMove s) := responseInv_of_eq hs (by simp) (by simp) (by simp) (by simp)
  obtain ⟨i, h, -⟩ | ⟨rfl, -⟩ | ⟨w, e, -, -, -, rfl⟩ | ⟨a, b, -, h⟩ | ⟨l, -, h⟩ | ⟨b, -, h⟩ | ⟨d, -, h⟩ | ⟨-, rfl⟩ :=
    takeMove_cases hmove
  · exact exec_responseInv h hpop
  · exact hpop
  · exact responseInv_of_seq_ne nofun
  · rw [hostWriteMove_next h]
    exact responseInv_of_eq hpop rfl rfl rfl le_rfl
  · rw [lineMove_frame h]
    exact responseInv_of_eq hpop rfl rfl rfl le_rfl
  · rw [bulkMove_frame h]
    exact responseInv_of_eq hpop rfl rfl rfl le_rfl
  · unfold clockMove at h
    split at h <;> cases h
    next hwidth => exact responseInv_of_eq hpop rfl rfl rfl ((Nat.le_add_right _ d).trans_eq (now_add_toNat hwidth).symm)
  · exact responseInv_of_seq_ne nofun

/-- Both exits show ACTIVATE_RX <- 1 and the completion. -/
theorem exchangeDone_since {s : State} {v : BitVec 64} {reads : List Event} {m : BitVec 32} (h : Shows reads m s) :
    sinceIssue (exchangeDone v s).trace =
      .completed v :: .wrote .activateRx 1 :: (reads ++ [.wrote .txCmd m, .wrote .activateRx 0]) := by
  rw [← h.since]
  rfl

theorem exists_read_of_isRead {e : Event} (h : isRead e = true) : ∃ r v, e = .read r v := by
  cases e with
  | read r v => exact ⟨r, v, rfl⟩
  | issued | wrote | completed | reset => cases h

/-- At P9 and P10 the command completes, with a byte or with FAIL. -/
theorem exec_receiveResponse_exits {s : State} {p : Fin 16} (h : atPhase .receiveResponse p s) (hp : p = 9 ∨ p = 10) :
    ∃ v, exec .receiveResponse s = .next (exchangeDone v s) ∧ (v = failResult s.cfg ∨ v.toNat < 256) := by
  obtain rfl | rfl := hp
  · exact ⟨_, exec_of_atPhase h, .inr ((responseResult_toNat s.scratch.v).trans_lt (Nat.mod_lt _ (by decide)))⟩
  · exact ⟨_, exec_of_atPhase h, .inl rfl⟩

/-- Settles O28: what an exit has shown is what the record asks at its phase; the rest is what each access does to T0 and the
window. -/
theorem responseExchangeShowsOneRequest : Obligations.ResponseExchangeShowsOneRequest := by
  refine ⟨fun s p hs h hp => ?shown, fun s t p h hexec => ?window⟩
  case shown =>
    obtain ⟨v, hexec, hv⟩ := exec_receiveResponse_exits h hp
    obtain ⟨-, -, hseq⟩ := h
    have hrecord := hs p hseq
    have hphase : 2 ≤ p.val ∧ statusFloor p.val = 4 := by obtain rfl | rfl := hp <;> decide
    obtain ⟨hlow, hfloor⟩ := hphase
    obtain ⟨reads, m, hshows, hstatus, hrx, -, hcollected, hwindow⟩ := (responseSoFar_iff hlow s).1 hrecord
    obtain ⟨h10, h9, h8⟩ := hshows.marker
    have hcollects : readsOf .rxData reads ≤ 1 ∧ (readsOf .rxData reads = 1 → ∃ w v rest,
        reads = .read .rxData w :: .read .status v :: rest ∧ v.getLsbD 1 = true) := by
      obtain rfl | rfl := hp
      · obtain ⟨w, v, rest, rfl, hready, hrest⟩ := hcollected rfl
        exact ⟨by simp [readsOf, hrest], fun _ => ⟨w, v, rest, rfl, hready⟩⟩
      · have hnone := hrx (by decide)
        exact ⟨by omega, by omega⟩
    obtain ⟨honce, hafter⟩ := hcollects
    exact ⟨_, reads, m, hexec, rfl, exchangeDone_since hshows,
      fun e he => exists_read_of_isRead (List.all_eq_true.1 hshows.onlyReads e he), h10, h9, h8, hfloor ▸ hstatus, honce,
      hafter, hv, fun hp10 => hwindow (congrArg Fin.val hp10)⟩
  case window =>
    have effect := receiveResponseAccess_effect s p t ((exec_of_atPhase h).symm.trans hexec)
    obtain ⟨hb, -⟩ := h
    have hp {q : Fin 16} (hq : p.val = q.val) : p = q := Fin.ext hq
    refine ⟨fun hdone => ?_, fun hp5 => ?_, fun hp5 hbusy => ?_, fun hfail => (effect.window hfail).imp_left hp⟩
    · obtain ⟨hbusy, -⟩ | ⟨-, hends⟩ := effect.goes
      · exact absurd (hdone.symm.trans (hbusy.trans hb)) Bool.false_ne_true
      · exact hends.imp hp hp
    · subst hp5
      obtain ⟨-, ht0⟩ | ⟨-, hends⟩ := effect.goes
      · exact ht0
      · exact absurd hends (by decide)
    · obtain ⟨-, ht0⟩ | ⟨hdone, -⟩ := effect.goes
      · exact ht0.trans (if_neg fun h => hp5 (hp (q := 5) h))
      · exact absurd (hdone.symm.trans hbusy) Bool.false_ne_true

/-! ### SEND_RESPONSE and background capture (R179; 60_exceptions.md R237) -/

/-- LINE under its contract leaves TC.ACTIVATE_RX. -/
theorem lineMove_activateRx {m : LineMove} {s t : State} (h : lineMove m s = .next t) (hbound : lineBound s = true) :
    t.tc.activateRx = s.tc.activateRx := by
  cases m with
  | config r v => simp [lineMove, hbound] at h
  | unready => simp [lineMove, hbound] at h
  | stageFrame | stage i b | sendWord | sendByte =>
    simp only [lineMove] at h
    split at h <;> cases h
    simp
  | flags | ready | response | hear | forget => cases h; rfl

/-- Of all moves under LINE's contract only a command's access writes TC.ACTIVATE_RX. -/
theorem takeMove_activateRx {m : Move} {s t : State} (h : takeMove m s = .next t) (hbound : lineBound s = true) :
    t.tc.activateRx = s.tc.activateRx ∨ ∃ i, exec i s = .next t ∧
      (s.busy = true ∧ s.latch = latchOf i ∨ ∃ w, m = .issue w ∧ s.busy = false ∧ decode w = .ok i) := by
  obtain ⟨i, h, hturn⟩ | ⟨rfl, -⟩ | ⟨w, e, -, -, -, rfl⟩ | ⟨a, b, -, h⟩ | ⟨l, -, h⟩ | ⟨b, -, h⟩ | ⟨d, -, h⟩ | ⟨-, rfl⟩ :=
    takeMove_cases h
  · exact .inr ⟨i, h, hturn.imp_left And.right⟩
  · exact .inl rfl
  · exact .inl rfl
  · exact .inl (by rw [hostWriteMove_next h, memWrite_tc])
  · exact .inl (lineMove_activateRx h hbound)
  · exact .inl (by rw [bulkMove_frame h])
  · unfold clockMove at h
    split at h <;> cases h
    exact .inl rfl
  · exact .inl rfl

/-- Settles O33: the one command that can move is this SEND_RESPONSE, which leaves TC. -/
theorem sendResponseLeavesCaptureAsFound : Obligations.SendResponseLeavesCaptureAsFound := by
  intro v s t hinit henable hstep hsend
  obtain ⟨-, -, hmove⟩ := step_next hstep
  have hbound : lineBound (popMove s) = true := by simp [lineBound, hinit, henable]
  obtain hkept | ⟨i, h, hturn⟩ := takeMove_activateRx hmove hbound
  · rw [hkept, popMove_tc]
  · simp only [popMove_busy, popMove_latch] at hturn
    have hi : i = .sendResponse v := by
      obtain ⟨hb, hl⟩ | ⟨w, hm, hb, hd⟩ := hturn
      · obtain ⟨-, hl', -⟩ | ⟨-, hl', -⟩ | ⟨hb', -⟩ := hsend
        · exact latchOf_inj (hl.symm.trans hl')
        · exact latchOf_inj (hl.symm.trans hl')
        · exact absurd (hb'.symm.trans hb) Bool.false_ne_true
      · obtain ⟨hb', -⟩ | ⟨hb', -⟩ | ⟨-, hm'⟩ := hsend
        · exact absurd (hb.symm.trans hb') Bool.false_ne_true
        · exact absurd (hb.symm.trans hb') Bool.false_ne_true
        · cases hm.symm.trans hm'
          cases hd.symm.trans (decode_encode _)
          rfl
    subst hi
    obtain ⟨htc, -⟩ := sendResponseChangesOnlyTheTransmitPath v _ t h
    rw [htc, popMove_tc]

/-! ### Runs of the bounded polls -/

/-- How many status reads the run has shown since the last issue. -/
def statusReads (s : State) : Nat := readsOf .status (sinceIssue s.trace)

theorem statusReads_pollStatus (s : State) : statusReads (pollStatus s) = statusReads s + 1 := Nat.add_comm 1 _

theorem one_le_pollBound {c : Config} (h : admitted c = true) : 1 ≤ c.pollBound := by
  obtain ⟨-, -, -, -, -, -, -, hbound, -⟩ := (admitted_iff c).1 h
  exact hbound

/-- ENGINE's first `m` steps at a command lead to the state from which the rest start. -/
theorem execSteps_add {i : Instr} {m n : Nat} {s t : State} {r : Result} (h : execSteps i m s = .next t)
    (hrest : execSteps i n t = r) : execSteps i (m + n) s = r := by
  induction m generalizing s with
  | zero =>
    cases h
    rwa [Nat.zero_add]
  | succ m ih =>
    rw [execSteps] at h
    split at h
    · next u hu =>
      rw [Nat.succ_add]
      exact execSteps_of_exec hu (ih h)
    · cases h
    · cases h

section Poll
variable {i : Instr} {p : Fin 16} {c : Tc → Bool} {k : State → State}

/-- With ENGINE alone moving, a poll with `d + 1` reads left goes on after at most so many. -/
theorem Polls.execSteps_ends (h : Polls i p c k) (d : Nat) {s : State} (hs : atPhase i p s)
    (hleft : s.scratch.cnt + (d + 1) = s.cfg.pollBound) : ∃ n scratch shown, n ≤ d + 1 ∧
      execSteps i n s = .next (k { s with scratch := scratch, trace := shown }) ∧
      readsOf .status (sinceIssue shown) = statusReads s + n := by
  induction d generalizing s with
  | zero => exact ⟨1, _, _, le_rfl, execSteps_of_exec (h.ends hs (.inr hleft)) rfl, statusReads_pollStatus s⟩
  | succ d ih =>
    by_cases hc : c s.tc = true
    · exact ⟨1, _, _, by omega, execSteps_of_exec (h.ends hs (.inl hc)) rfl, statusReads_pollStatus s⟩
    · rw [Bool.not_eq_true] at hc
      have hread := h.repeats hs hc (by omega)
      obtain ⟨n, scratch, shown, hn, hrun, hreads⟩ := ih (s := pollStatus s) hs
        (by simp only [pollStatus_scratch, pollStatus_cfg]; omega)
      refine ⟨n + 1, scratch, shown, by omega, execSteps_of_exec hread hrun, ?_⟩
      rw [hreads, statusReads_pollStatus]
      omega

/-- Along a schedule in which ENGINE alone moves, a poll whose condition does not come makes the reads it has left. -/
theorem Polls.stepN_bound (h : Polls i p c k) (d : Nat) {s : State} {ms : List Move} (ha : admitted s.cfg = true)
    (hp : pendingAllowed s = true) (hs : atPhase i p s) (hc : c s.tc = false)
    (hleft : s.scratch.cnt + (d + 1) = s.cfg.pollBound) (hms : s.schedule = List.replicate (d + 1) .engine ++ ms) :
    ∃ scratch shown, stepN (d + 1) s = .next (k { s with scratch := scratch, trace := shown, schedule := ms }) := by
  induction d generalizing s with
  | zero => exact ⟨_, _, stepN_engine ha hp hms hs (h.access_ends (.inr hleft)) rfl⟩
  | succ d ih =>
    have hread := h.access_repeats (s := { s with schedule := List.replicate (d + 1) .engine ++ ms })
      (hs.seq_eq p rfl) hc (by simp only; omega)
    obtain ⟨scratch, shown, hrun⟩ := ih (s := pollStatus { s with schedule := List.replicate (d + 1) .engine ++ ms })
      ha hp hs hc (by simp only [pollStatus_scratch, pollStatus_cfg]; omega) rfl
    exact ⟨scratch, shown, stepN_engine ha hp hms hs hread hrun⟩

end Poll

/-! ### Whole runs of SEND_RESPONSE (R178; 60_exceptions.md R243) -/

/-- In a run in which ENGINE goes on, the access of the phase a command stands at comes; until then the command stands
there. -/
theorem access_comes {moves : Nat → Move} {run : Nat → State} {n k : Nat} {i : Instr} {p : Fin 16}
    (hI : InfiniteRun moves run) (hE : EngineGoesOn moves) (hR : NoResetFrom n moves) (hk : n ≤ k)
    (hs : atPhase i p (run k)) : ∃ m, k ≤ m ∧ StandsStill (run k) (run m) ∧ atPhase i p (run m) ∧
      exec i (run m) = .next (run (m + 1)) ∧ ∀ j, k ≤ j → j ≤ m → (run j).busy = true ∧ (run j).latch = latchOf i := by
  obtain ⟨hb, hl, hseq⟩ := hs
  obtain ⟨m, hkm, hturn, hstill⟩ := engine_turn_comes hI hE hR hk hb
  have hm := hstill m hkm le_rfl
  have hb' := hm.busy.trans hb
  have hl' := hm.latch.trans hl
  obtain ⟨-, -, hmove⟩ := turnOf_next hturn
  rw [takeMove, engineTurn_of_latch hb' hl'] at hmove
  refine ⟨m, hkm, hm, ⟨hb', hl', hm.seq.trans hseq⟩, hmove, fun j hkj hjm => ?_⟩
  have hj := hstill j hkj hjm
  exact ⟨hj.busy.trans hb, hj.latch.trans hl⟩

/-- From step `k` of the run on a SEND_RESPONSE stays in flight until a later step completes it with 0, at most `r` status
reads after its issue. -/
def Acknowledges (v : BitVec 8) (r : Nat) (run : Nat → State) (k : Nat) : Prop :=
  ∃ m, k < m ∧ completedWith 0 (run m) ∧
    (∀ j, k ≤ j → j < m → (run j).busy = true ∧ (run j).latch = latchOf (.sendResponse v)) ∧ statusReads (run m) ≤ r

section Acknowledged
variable {v : BitVec 8} {moves : Nat → Move} {run : Nat → State} {n k : Nat}

theorem Acknowledges.of_later {r m : Nat} (h : Acknowledges v r run (m + 1)) (hkm : k ≤ m)
    (hbefore : ∀ j, k ≤ j → j ≤ m → (run j).busy = true ∧ (run j).latch = latchOf (.sendResponse v)) :
    Acknowledges v r run k := by
  obtain ⟨e, hme, hends, hflight, hreads⟩ := h
  refine ⟨e, by omega, hends, fun j hkj hje => ?_, hreads⟩
  by_cases hjm : j ≤ m
  · exact hbefore j hkj hjm
  · exact hflight j (by omega) hje

/-- The read at step `m` is the poll's last. -/
theorem acknowledges_of_last {m r : Nat} (hkm : k ≤ m) (hs : atPhase (.sendResponse v) 1 (run m))
    (hlast : (run m).tc.sendDone = true ∨ (run m).scratch.cnt + 1 = (run m).cfg.pollBound)
    (hexec : exec (.sendResponse v) (run m) = .next (run (m + 1))) (hr : statusReads (run m) + 1 ≤ r)
    (hbefore : ∀ j, k ≤ j → j ≤ m → (run j).busy = true ∧ (run j).latch = latchOf (.sendResponse v)) :
    Acknowledges v r run k := by
  have hnext : run (m + 1) = complete 0 (pollStatus (run m)) :=
    Host.Outcome.next.inj (hexec.symm.trans ((polls_accepted v).ends hs hlast))
  refine ⟨m + 1, by omega, ?_, fun j hkj hj => hbefore j hkj (by omega), ?_⟩ <;> rw [hnext]
  · exact ⟨rfl, rfl, rfl, rfl⟩
  · exact (statusReads_pollStatus (run m)).trans_le hr

variable (hI : InfiniteRun moves run) (hE : EngineGoesOn moves) (hR : NoResetFrom n moves)
include hI hE hR

/-- From P1 with `d + 1` reads left. -/
theorem acknowledges_of_poll (d : Nat) (hk : n ≤ k) (hs : atPhase (.sendResponse v) 1 (run k))
    (hleft : (run k).scratch.cnt + (d + 1) = (run k).cfg.pollBound) :
    Acknowledges v (statusReads (run k) + (d + 1)) run k := by
  induction d generalizing k with
  | zero =>
    obtain ⟨m, hkm, hm, hphase, hexec, hbefore⟩ := access_comes hI hE hR hk hs
    rw [← hm.scratch, ← hm.cfg] at hleft
    exact acknowledges_of_last hkm hphase (.inr hleft) hexec (by rw [statusReads, hm.trace, statusReads]) hbefore
  | succ d ih =>
    obtain ⟨m, hkm, hm, hphase, hexec, hbefore⟩ := access_comes hI hE hR hk hs
    have hreads : statusReads (run m) = statusReads (run k) := by rw [statusReads, hm.trace, statusReads]
    rw [← hm.scratch, ← hm.cfg] at hleft
    by_cases hc : (run m).tc.sendDone = true
    · exact acknowledges_of_last hkm hphase (.inl hc) hexec (by omega) hbefore
    · have hnext : run (m + 1) = pollStatus (run m) :=
        Host.Outcome.next.inj (hexec.symm.trans ((polls_accepted v).repeats hphase (by simpa using hc) (by omega)))
      have hlater := ih (k := m + 1) (by omega) (by rw [hnext]; exact hphase)
        (by rw [hnext]; simp only [pollStatus_scratch, pollStatus_cfg]; omega)
      rw [hnext, statusReads_pollStatus, hreads, Nat.add_assoc, Nat.add_comm 1] at hlater
      exact hlater.of_later hkm hbefore

/-- From P0: the response word, and then the poll. -/
theorem acknowledges_of_start (hk : n ≤ k) (hs : atPhase (.sendResponse v) 0 (run k)) :
    Acknowledges v (statusReads (run k) + (run k).cfg.pollBound) run k := by
  obtain ⟨m, hkm, hm, hphase, hexec, hbefore⟩ := access_comes hI hE hR hk hs
  obtain ⟨ha, -⟩ := turnOf_next (hI k)
  have hbound := one_le_pollBound ha
  have hnext : run (m + 1) = goTo .sendResponse 1 (setCnt 0 (regWrite .txCmd (responseWord v) (run m))) :=
    Host.Outcome.next.inj (hexec.symm.trans (exec_of_atPhase hphase))
  obtain ⟨hb, hl, -⟩ := hphase
  have hpoll := acknowledges_of_poll (v := v) hI hE hR ((run k).cfg.pollBound - 1) (k := m + 1) (by omega)
    (by rw [hnext]; exact ⟨hb, hl, rfl⟩)
    (by rw [hnext, goTo_cfg, setCnt_cfg, regWrite_cfg, hm.cfg]; exact (Nat.zero_add _).trans (Nat.sub_add_cancel hbound))
  have hreads : statusReads (run (m + 1)) = statusReads (run k) := by
    rw [hnext, statusReads, statusReads, ← hm.trace]
    rfl
  rw [hreads, Nat.sub_add_cancel hbound] at hpoll
  exact hpoll.of_later hkm hbefore

/-- From any state in which the invariant holds and a SEND_RESPONSE is in flight. -/
theorem acknowledges_of_machineInv (hk : n ≤ k) (hinv : MachineInv (run k)) (hb : (run k).busy = true)
    (hl : (run k).latch = latchOf (.sendResponse v)) : ∃ r, Acknowledges v r run k := by
  obtain ⟨-, hengine, -⟩ := hinv
  cases hseq : (run k).seq with
  | idle =>
    simp only [seqInv, hseq] at hengine
    exact absurd (hengine.symm.trans hb) Bool.false_ne_true
  | phase op p =>
    obtain ⟨-, -, hp, ⟨i, hl', hop⟩, hcnt⟩ := (seqInv_phase hseq).1 hengine
    cases latchOf_inj (hl.symm.trans hl')
    subst hop
    match p, hp with
    | 0, _ => exact ⟨_, acknowledges_of_start hI hE hR hk ⟨hb, hl, hseq⟩⟩
    | 1, _ =>
      have hleft := hcnt rfl
      exact ⟨_, acknowledges_of_poll hI hE hR ((run k).cfg.pollBound - (run k).scratch.cnt - 1) hk ⟨hb, hl, hseq⟩
        (by omega)⟩

end Acknowledged

/-- Settles O32: with ENGINE alone moving the issue, the response word and the poll; in an infinite run the accesses come
one by one, whatever the other agents do between them. -/
theorem sendResponseCompletesWithinTheBound : Obligations.SendResponseCompletesWithinTheBound := by
  refine ⟨fun v s ha hb => ?alone, fun moves run n v hI hE hR hinv => ⟨fun hb hl => ?inFlight, fun hb hm => ?issued⟩⟩
  case alone =>
    have hl := latch_issue (.sendResponse v) s
    have hbound := one_le_pollBound ha
    obtain ⟨n, scratch, shown, hn, hpoll, hreads⟩ := (polls_accepted v).execSteps_ends (s.cfg.pollBound - 1)
      (s := goTo .sendResponse 1 (setCnt 0 (regWrite .txCmd (responseWord v) (issue (.sendResponse v) s))))
      ⟨rfl, hl, rfl⟩ ((Nat.zero_add _).trans (Nat.sub_add_cancel hbound))
    have hreads' : readsOf .status (sinceIssue shown) = n := hreads.trans (Nat.zero_add n)
    exact ⟨_, _, by omega,
      execSteps_of_exec (exec_idle hb) (execSteps_of_exec (exec_of_atPhase (p := 0) ⟨rfl, hl, rfl⟩) hpoll),
      ⟨rfl, rfl, rfl, rfl⟩, hreads'.trans_le (by omega), List.length_append, rfl, rfl⟩
  case inFlight =>
    obtain ⟨r, m, hnm, hends, hflight, -⟩ := acknowledges_of_machineInv hI hE hR le_rfl hinv hb hl
    exact ⟨m, hnm, hends, hflight⟩
  case issued =>
    have hturn := hI n
    rw [hm] at hturn
    obtain ⟨-, -, hmove⟩ := turnOf_next hturn
    rw [takeMove, issueTurn_of_decode hb (decode_encode _), exec_idle hb] at hmove
    have hnext : run (n + 1) = issue (.sendResponse v) (run n) := Host.Outcome.next.inj hmove.symm
    obtain ⟨m, hnm, hends, hflight, hreads⟩ := acknowledges_of_start (v := v) hI hE hR (k := n + 1) (by omega)
      (by rw [hnext]; exact ⟨rfl, latch_issue _ _, rfl⟩)
    have hnone : statusReads (run (n + 1)) = 0 := by rw [hnext]; rfl
    rw [hnone, hnext] at hreads
    exact ⟨m, by omega, hends, hflight, hreads.trans_eq (Nat.zero_add _)⟩

/-! ### Whole runs of RECEIVE_RESPONSE (R176; 60_exceptions.md R221, R227) -/

/-- `s` with SEQ at a phase of RECEIVE_RESPONSE, these scratch registers, these moves to come and this record: the form in
which the runs below name their states. -/
def responseAt (p : Fin 16) (scratch : Scratch) (ms : List Move) (shown : List Event) (s : State) : State :=
  { s with seq := .phase .receiveResponse p, scratch := scratch, schedule := ms, trace := shown }

/-- `s` with capture off and the marker word sent. -/
def requested (s : State) : State :=
  { s with
    tc := { s.tc with activateRx := 0 }
    line := { s.line with txWords := s.line.txWords ++ [markerWord (repetitionsOf s.cfg s.timeout)] } }

section Accesses
variable (scratch : Scratch) (ms : List Move) (shown : List Event) (s : State)

theorem responseAt_captureOff : receiveResponseAccess 0 (responseAt 0 scratch ms shown s) =
    .next (responseAt 1 { scratch with rep := repetitionsOf s.cfg s.timeout } ms (.wrote .activateRx 0 :: shown)
      { s with tc := { s.tc with activateRx := 0 } }) := rfl

theorem responseAt_marker : receiveResponseAccess 1 (responseAt 1 scratch ms shown s) =
    .next (responseAt 2 { scratch with cnt := 0 } ms (.wrote .txCmd (markerWord scratch.rep) :: shown)
      { s with line := { s.line with txWords := s.line.txWords ++ [markerWord scratch.rep] } }) := rfl

theorem responseAt_clock : receiveResponseAccess 5 (responseAt 5 scratch ms shown s) =
    .next (responseAt 6 { scratch with t0 := s.now } ms shown s) := rfl

theorem responseAt_ready {q : Fin 16} (hq : q = if s.tc.dataReady then 8 else 7) :
    receiveResponseAccess 6 (responseAt 6 scratch ms shown s) =
    .next (responseAt q { scratch with s := statusWord s.tc } ms (.read .status (statusWord s.tc) :: shown) s) := by
  rw [receiveResponseAccess_ready, ← apply_ite (Seq.phase Op.receiveResponse), responseAt, ← hq]
  rfl

theorem responseAt_windowPassed (h : scratch.t0.toNat + 1000 ≤ s.now.toNat) :
    receiveResponseAccess 7 (responseAt 7 scratch ms shown s) = .next (responseAt 10 scratch ms shown s) := by
  rw [receiveResponseAccess_window, if_pos (by exact h)]
  rfl

end Accesses

section Alone
variable {s : State} {scratch : Scratch} {ms : List Move} {shown : List Event} (hb : s.busy = true)
  (hl : s.latch = latchOf .receiveResponse)
include hb hl

/-- ENGINE's step from a phase of RECEIVE_RESPONSE. -/
theorem execSteps_responseAt {p : Fin 16} {n : Nat} {t : State} {r : Result}
    (h : receiveResponseAccess p.val (responseAt p scratch ms shown s) = .next t)
    (hrest : execSteps .receiveResponse n t = r) :
    execSteps .receiveResponse (n + 1) (responseAt p scratch ms shown s) = r :=
  execSteps_of_exec ((exec_of_atPhase (s := responseAt p scratch ms shown s) ⟨hb, hl, rfl⟩).trans h) hrest

/-- From P0: capture off and the marker word. -/
theorem execSteps_request : ∃ scratch' shown', scratch'.cnt = 0 ∧
    execSteps .receiveResponse 2 (responseAt 0 scratch ms shown s) =
      .next (responseAt 2 scratch' ms shown' (requested s)) :=
  ⟨_, _, rfl, execSteps_responseAt hb hl (responseAt_captureOff ..) <|
    execSteps_responseAt (s := { s with tc := { s.tc with activateRx := 0 } }) hb hl (responseAt_marker ..) rfl⟩

/-- The three bounded waits, each of at most POLL_BOUND reads. -/
theorem execSteps_waits (hbound : 1 ≤ s.cfg.pollBound) (hcnt : scratch.cnt = 0) :
    ∃ n scratch' shown', n ≤ 3 * s.cfg.pollBound ∧
      execSteps .receiveResponse n (responseAt 2 scratch ms shown s) = .next (responseAt 5 scratch' ms shown' s) := by
  obtain ⟨d, hd⟩ := Nat.exists_eq_add_of_le' hbound
  have hleft : 0 + (d + 1) = s.cfg.pollBound := by omega
  obtain ⟨n₁, scratch₁, shown₁, hn₁, hstart, -⟩ := polls_start.execSteps_ends d
    (s := responseAt 2 scratch ms shown s) ⟨hb, hl, rfl⟩ (hcnt ▸ hleft)
  obtain ⟨n₂, scratch₂, shown₂, hn₂, hsent, -⟩ := polls_sent.execSteps_ends d
    (s := responseAt 3 { scratch₁ with cnt := 0 } ms shown₁ s) ⟨hb, hl, rfl⟩ hleft
  obtain ⟨n₃, scratch₃, shown₃, hn₃, hreceived, -⟩ := polls_received.execSteps_ends d
    (s := responseAt 4 { scratch₂ with cnt := 0 } ms shown₂ s) ⟨hb, hl, rfl⟩ hleft
  exact ⟨_, scratch₃, shown₃, by omega, execSteps_add hstart (execSteps_add hsent hreceived)⟩

/-- From P5 on, with DATA_READY standing: the clock read, the status read, the byte and the completion. -/
theorem execSteps_collects (hready : s.tc.dataReady = true) : ∃ t,
    execSteps .receiveResponse 4 (responseAt 5 scratch ms shown s) = .next t ∧ completedWith t.res t ∧
      t.res.toNat = s.tc.rxData.toNat % 256 ∧ t.tc.activateRx = 1 ∧ t.pendingSend = false ∧ t.timeout = s.timeout :=
  ⟨_, execSteps_responseAt hb hl (responseAt_clock ..) <|
    execSteps_responseAt hb hl (responseAt_ready _ _ _ _ (q := 8) (by rw [hready]; rfl)) <|
    execSteps_responseAt hb hl (receiveResponseAccess_collects _) <|
    execSteps_of_exec (exec_of_atPhase (p := 9) ⟨hb, hl, rfl⟩) rfl,
    ⟨rfl, rfl, rfl, rfl⟩, responseResult_toNat s.tc.rxData, rfl, rfl, rfl⟩

end Alone

/-- Settles O26: the request, the waits, the clock read, the status read that shows DATA_READY, and the byte. -/
theorem readyResponseIsReturned : Obligations.ReadyResponseIsReturned := by
  intro s ha hb hready
  have hl := latch_issue .receiveResponse s
  have hissue : exec .receiveResponse s =
      .next (responseAt 0 s.scratch s.schedule (issue .receiveResponse s).trace (issue .receiveResponse s)) := exec_idle hb
  obtain ⟨scratch, shown, hcnt, hrequest⟩ := execSteps_request (s := issue .receiveResponse s) (scratch := s.scratch)
    (ms := s.schedule) (shown := (issue .receiveResponse s).trace) rfl hl
  obtain ⟨n, scratch', shown', hn, hwaits⟩ := execSteps_waits (s := requested (issue .receiveResponse s))
    (ms := s.schedule) (shown := shown) rfl hl (one_le_pollBound ha) hcnt
  obtain ⟨t, hcollects, hdone, hres, hrx, hpending, htimeout⟩ := execSteps_collects
    (s := requested (issue .receiveResponse s)) (scratch := scratch') (ms := s.schedule) (shown := shown') rfl hl hready
  have hrun := execSteps_of_exec hissue (execSteps_add hrequest (execSteps_add hwaits hcollects))
  have hbound : n ≤ 3 * s.cfg.pollBound := hn
  exact ⟨_, t, by omega, hrun, hdone, hres, hrx, hpending, htimeout⟩

section Scheduled
variable {s : State} {scratch : Scratch} {ms : List Move} {shown : List Event} (ha : admitted s.cfg = true)
  (hp : pendingAllowed s = true) (hb : s.busy = true) (hl : s.latch = latchOf .receiveResponse)
include ha hp hb hl

/-- ENGINE's step from a phase of RECEIVE_RESPONSE, along a schedule. -/
theorem stepN_responseAt {p : Fin 16} {n : Nat} {t : State} {r : Result}
    (h : receiveResponseAccess p.val (responseAt p scratch ms shown s) = .next t)
    (hrest : stepN n t = r) : stepN (n + 1) (responseAt p scratch (.engine :: ms) shown s) = r :=
  stepN_engine (i := .receiveResponse) (s := responseAt p scratch (.engine :: ms) shown s) ha hp rfl ⟨hb, hl, rfl⟩ h hrest

/-- From P0: capture off and the marker word. -/
theorem stepN_request : ∃ scratch' shown', scratch'.cnt = 0 ∧
    stepN 2 (responseAt 0 scratch (.engine :: .engine :: ms) shown s) =
      .next (responseAt 2 scratch' ms shown' (requested s)) :=
  ⟨_, _, rfl, stepN_responseAt ha hp hb hl (responseAt_captureOff ..) <|
    stepN_responseAt (s := { s with tc := { s.tc with activateRx := 0 } }) ha hp hb hl (responseAt_marker ..) rfl⟩

/-- With the flags at rest W1 meets its bound, and W2 and W3 read once. -/
theorem stepN_waits (hsending : s.tc.sending = false) (hreceiving : s.tc.receiving = false) (hcnt : scratch.cnt = 0) :
    ∃ scratch' shown', stepN (s.cfg.pollBound + 2)
        (responseAt 2 scratch (List.replicate s.cfg.pollBound .engine ++ (.engine :: .engine :: ms)) shown s) =
      .next (responseAt 5 scratch' ms shown' s) := by
  obtain ⟨d, hd⟩ := Nat.exists_eq_add_of_le' (one_le_pollBound ha)
  have hleft : scratch.cnt + (d + 1) = s.cfg.pollBound := by omega
  obtain ⟨scratch₁, shown₁, hstart⟩ := polls_start.stepN_bound d (ms := .engine :: .engine :: ms)
    (s := responseAt 2 scratch (List.replicate (d + 1) .engine ++ (.engine :: .engine :: ms)) shown s)
    ha hp ⟨hb, hl, rfl⟩ hsending hleft rfl
  have hsent := polls_sent.access_ends (s := responseAt 3 { scratch₁ with cnt := 0 } (.engine :: ms) shown₁ s)
    (.inl (by exact congrArg not hsending))
  have hreceived := polls_received.access_ends (s := responseAt 4 { scratch₁ with s := statusWord s.tc, cnt := 0 } ms
    (.read .status (statusWord s.tc) :: shown₁) s) (.inl (by exact congrArg not hreceiving))
  rw [hd]
  exact ⟨_, _, stepN_add hstart (stepN_responseAt ha hp hb hl hsent (stepN_responseAt ha hp hb hl hreceived rfl))⟩

/-- From P5 on, with no response: the window opens, CLOCK passes it, and the command fails. -/
theorem stepN_window {d : Nat} (hready : s.tc.dataReady = false) (hd : 1000 ≤ d) (hnow : s.now.toNat + d < 2 ^ 64) :
    ∃ scratch' shown',
      stepN 5 (responseAt 5 scratch (.engine :: .engine :: .clock d :: .engine :: .engine :: ms) shown s) =
        .next (exchangeDone (failResult s.cfg)
          (responseAt 10 scratch' ms shown' { s with now := s.now + BitVec.ofNat 64 d })) :=
  ⟨_, _, stepN_responseAt ha hp hb hl (responseAt_clock ..) <|
    stepN_responseAt ha hp hb hl (responseAt_ready _ _ _ _ (q := 7) (by rw [hready]; rfl)) <|
    stepN_clock ha hp rfl hnow <|
    stepN_responseAt (s := { s with now := s.now + BitVec.ofNat 64 d }) ha hp hb hl
      (responseAt_windowPassed _ _ _ _ ((Nat.add_le_add_left hd _).trans_eq (now_add_toNat hnow).symm)) <|
    stepN_responseAt (s := { s with now := s.now + BitVec.ofNat 64 d }) ha hp hb hl rfl rfl⟩

end Scheduled

/-- The schedule's moves of ENGINE, as the run below takes them. -/
theorem replicate_engine_split (n : Nat) (ms : List Move) : List.replicate (n + 6) Move.engine ++ ms =
    .engine :: .engine :: (List.replicate n .engine ++ (.engine :: .engine :: .engine :: .engine :: ms)) := by
  rw [show n + 6 = 2 + (n + 4) by omega, List.replicate_add, List.replicate_add, List.append_assoc, List.append_assoc]
  rfl

/-- Settles O27: the issue and the request, the waits with the flags at rest, and the window that passes. -/
theorem unansweredRequestTimesOut : Obligations.UnansweredRequestTimesOut := by
  intro s d rest ha hp hb hready hsending hreceiving hd hnow hs
  have hl := latch_issue .receiveResponse s
  rw [replicate_engine_split] at hs
  obtain ⟨scratch, shown, hcnt, hrequest⟩ := stepN_request (s := issue .receiveResponse s) (scratch := s.scratch)
    (ms := List.replicate s.cfg.pollBound .engine ++
      (.engine :: .engine :: .engine :: .engine :: .clock d :: .engine :: .engine :: rest))
    (shown := (issue .receiveResponse s).trace) ha hp rfl hl
  obtain ⟨scratch', shown', hwaits⟩ := stepN_waits (s := requested (issue .receiveResponse s))
    (ms := .engine :: .engine :: .clock d :: .engine :: .engine :: rest) (shown := shown) ha hp rfl hl hsending hreceiving
    hcnt
  obtain ⟨scratch'', shown'', hwindow⟩ := stepN_window (s := requested (issue .receiveResponse s)) (scratch := scratch')
    (ms := rest) (shown := shown') ha hp rfl hl hready hd hnow
  have hrun := stepN_issue ha hp hs hb rfl (stepN_add hrequest (stepN_add hwaits hwindow))
  obtain ⟨h10, -⟩ := markerWord_bits (repetitionsOf s.cfg s.timeout)
  have hcount : s.cfg.pollBound + 10 = 2 + (s.cfg.pollBound + 2 + 5) + 1 := by omega
  rw [hcount]
  exact ⟨_, _, hrun, ⟨rfl, rfl, rfl, rfl⟩, rfl, rfl, rfl, rfl, h10, rfl, rfl, fun _ => rfl, rfl⟩

end Sys2Proof.Machine
end

section
/-! PROOFS. The family 44_frame_receive: the phases of RECEIVE_FRAME one by one, what it leaves unchanged, a whole transfer
of BULK, and the delivery of a captured frame (44_frame_receive.md R200, R201; 60_exceptions.md R240, R241). -/

namespace Sys2Proof.Machine

/-! ### The phases of RECEIVE_FRAME (R200, R201) -/

theorem encode_receiveFrame_toNat (b : BitVec 32) (l : BitVec 16) :
    (encode (.receiveFrame b l)).toNat = 0x5000000000000000 + l.toNat * 2 ^ 32 + b.toNat := by
  simp only [encode_toNat, Instr.op, Op.number, Instr.a1, Instr.a0, BitVec.ofNat_eq_ofNat, BitVec.toNat_ofNat]
  omega

/-- The short path ends with the issue. -/
theorem receiveFrameStart_short {l : BitVec 16} {s : State} (h : l ≠ s.cfg.maxPacketLen) :
    receiveFrameStart l s = .next (complete (res16 l) s) := congrArg _ (if_neg h)

/-- The full path goes on to P0. -/
theorem receiveFrameStart_full {l : BitVec 16} {s : State} (h : l = s.cfg.maxPacketLen) :
    receiveFrameStart l s = .next s := congrArg _ (if_pos h)

/-- P0: the flag taken from the word read is DATA_READY itself. -/
theorem receiveFrameAccess_sample (b : BitVec 32) (l : BitVec 16) (s : State) : receiveFrameAccess b l 0 s =
    .next (if s.tc.dataReady then goTo .receiveFrame 1 (readStatus s)
      else complete (failResult s.cfg) (readStatus s)) := by
  rw [← dataReadyOf_statusWord s.tc]
  rfl

/-- P0, no frame captured. -/
theorem receiveFrameAccess_notReady (b : BitVec 32) (l : BitVec 16) {s : State} (h : s.tc.dataReady = false) :
    receiveFrameAccess b l 0 s = .next (complete (failResult s.cfg) (readStatus s)) := by
  rw [receiveFrameAccess_sample, h]
  rfl

/-- P0, a frame captured. -/
theorem receiveFrameAccess_ready (b : BitVec 32) (l : BitVec 16) {s : State} (h : s.tc.dataReady = true) :
    receiveFrameAccess b l 0 s = .next (goTo .receiveFrame 1 (readStatus s)) := by
  rw [receiveFrameAccess_sample, h]
  rfl

/-- P3, with room in the queue. -/
theorem receiveFrameAccess_submits (b : BitVec 32) {l : BitVec 16} {s : State}
    (h : pendingCount s.bt < s.cfg.btQueueDepth) : receiveFrameAccess b l 3 s = .next { s with
      bt := { s.bt with len := l.zeroExtend 32, done := false, queue := s.bt.queue ++ [⟨s.bt.src, s.bt.dst, l⟩] }
      seq := .phase .receiveFrame 4
      trace := .wrote .len (l.zeroExtend 32) :: s.trace } := by
  rw [← submit_lenWord]
  exact submitThen_room h

/-- P4 goes by BT.DONE[0], the flag in the word it reads. -/
theorem receiveFrameAccess_waits (b : BitVec 32) (l : BitVec 16) (s : State) : receiveFrameAccess b l 4 s =
    .next { s with
      seq := if s.bt.done then .phase .receiveFrame 5 else .phase .receiveFrame 4
      trace := .read .done (doneWord s.bt) :: s.trace } := by
  rw [← doneOf_doneWord s.bt]
  exact congrArg _ (ite_goTo ..)

/-- Settles O35: the short path. -/
theorem shortReadCompletesWithoutAnyCopy : Obligations.ShortReadCompletesWithoutAnyCopy := by
  intro b l s hb hl
  exact ⟨_, (exec_idle hb).trans (receiveFrameStart_short hl), ⟨rfl, rfl, rfl, rfl⟩, rfl, onlyEngineChanged_refl s⟩

/-- Settles O36: the word, the issue on its two paths, and then each phase by its access. -/
theorem receiveFrameFollowsItsPhases : Obligations.ReceiveFrameFollowsItsPhases := by
  intro b l s
  have access {p : Fin 16} (h : atPhase (.receiveFrame b l) p s) :
      exec (.receiveFrame b l) s = receiveFrameAccess b l p.val s := exec_of_atPhase h
  refine ⟨encode_receiveFrame_toNat b l, fun hb hl => ?short, fun hb hl => exec_issues hb (receiveFrameStart_full hl),
    fun h hready => ?fails, fun h hready => ?goes, access, access, fun h hroom => ?submits, fun h => ?waits,
    fun h => ?completes⟩
  case short =>
    obtain ⟨t, hexec, hdone, hshown, hframe⟩ := shortReadCompletesWithoutAnyCopy b l s hb hl
    exact ⟨t, hexec, hdone, hframe, hshown⟩
  case fails =>
    exact ⟨_, (access h).trans (receiveFrameAccess_notReady b l hready), ⟨rfl, rfl, rfl, rfl⟩,
      onlyEngineChanged_refl s, rfl⟩
  case goes => exact (access h).trans (receiveFrameAccess_ready b l hready)
  case submits => exact (access h).trans (receiveFrameAccess_submits b hroom)
  case waits => exact (access h).trans (receiveFrameAccess_waits b l s)
  case completes => exact ⟨_, access h, ⟨rfl, rfl, rfl, rfl⟩, onlyEngineChanged_refl _, rfl⟩

/-! ### The frame of RECEIVE_FRAME (R200) -/

/-- What the access at phase `p` of RECEIVE_FRAME may change of the facade and the ghost bits: BT at its three writes, and
DATA_READY at P5. -/
structure ReceiveFrameEffect (p : Nat) (s t : State) : Prop where
  tc : t.tc = { s.tc with dataReady := t.tc.dataReady } := by rfl
  dataReady : t.tc.dataReady = s.tc.dataReady ∨ p = 5 := by exact .inl rfl
  status : t.bt.status = s.bt.status := by rfl
  doneRest : t.bt.doneRest = s.bt.doneRest := by rfl
  active : t.bt.active = s.bt.active := by rfl
  bt : t.bt = s.bt ∨ p = 1 ∨ p = 2 ∨ p = 3 := by exact .inl rfl
  line : t.line = s.line := by rfl
  initDone : t.initDone = s.initDone := by rfl
  pendingSend : t.pendingSend = s.pendingSend := by rfl

theorem receiveFrameAccess_effect (b : BitVec 32) (l : BitVec 16) (s : State) :
    ∀ p, Answers (ReceiveFrameEffect p s) (receiveFrameAccess b l p s)
  | 0 | 4 => .nextIte (fun _ => {}) (fun _ => {})
  | 1 => .next { bt := .inr (.inl rfl) }
  | 2 => .next { bt := .inr (.inr (.inl rfl)) }
  | 3 => .submitThen (k := goTo .receiveFrame 4) fun _ => { bt := .inr (.inr (.inr rfl)) }
  | 5 => .next { dataReady := .inr rfl }
  | _ + 6 => .fault

/-- Settles O37: the issue changes the engine alone, each access only what it may, and every command leaves the rest. -/
theorem receiveFrameChangesOnlySubmissionAndReady : Obligations.ReceiveFrameChangesOnlySubmissionAndReady := by
  intro b l s t h
  have htimeout := exec_keeps_timeout (by simp [Instr.op]) h
  have hres := exec_res h
  have houtside := exec_outsideUnchanged h
  obtain ⟨-, -, htc, hbt, hline, hinit, hpending, -⟩ | ⟨p, hphase, h⟩ := exec_issued_or_access (by simp [Instr.op]) h
  · rw [htc, hbt]
    exact ⟨rfl, .inl rfl, rfl, rfl, rfl, .inl rfl, hline, htimeout, hinit, hpending, hres, houtside⟩
  · have effect := receiveFrameAccess_effect b l s p t h
    exact ⟨effect.tc, effect.dataReady.imp_right (hphase.seq_eq 5), effect.status, effect.doneRest, effect.active,
      effect.bt.imp_right (.imp (hphase.seq_eq 1) (.imp (hphase.seq_eq 2) (hphase.seq_eq 3))), effect.line, htimeout,
      effect.initDone, effect.pendingSend, hres, houtside⟩

/-! ### A whole transfer of BULK, byte by byte in ascending order (60_exceptions.md R240, R241) -/

/-- Of a transfer's bytes the first `k` are done, and `m` more are to be read. -/
def byteStates (k m : Nat) : List ByteState := List.replicate k .done ++ List.replicate m .waiting

/-- The same with the byte between them, `v`, read and not yet written. -/
def heldStates (k : Nat) (v : Byte) (m : Nat) : List ByteState :=
  List.replicate k .done ++ .held v :: List.replicate m .waiting

/-- `s` with this bulk region and these moves to come: the form in which the runs below name their states. -/
def bulkAt (bt : Bt) (ms : List Move) (s : State) : State := { s with bt := bt, schedule := ms }

/-- BULK reads the first byte that is not done. -/
theorem bulkMove_read_first (x : Transfer) (k m : Nat) (bt : Bt) (ms : List Move) (s : State) :
    bulkMove (.read k) (bulkAt { bt with active := some ⟨x, byteStates k (m + 1)⟩ } ms s) =
      .next (bulkAt
        { bt with active := some ⟨x, heldStates k (memRead (x.src + BitVec.ofNat 32 k) s) m⟩ } ms s) := by
  have hwaiting : (byteStates k (m + 1))[k]? = some .waiting := by simp [byteStates]
  have hbefore : allBefore (fun c => c != .waiting) k (byteStates k (m + 1)) = true := by simp [allBefore, byteStates]
  have hset (v : Byte) : (byteStates k (m + 1)).set k (.held v) = heldStates k v m := by
    simp [byteStates, heldStates, List.replicate_succ]
  have hbt : (bulkAt { bt with active := some ⟨x, byteStates k (m + 1)⟩ } ms s).bt.active =
      some ⟨x, byteStates k (m + 1)⟩ := rfl
  simp only [bulkMove, bulkRead, hbt, hwaiting, hbefore, hset, implies_true, and_self, if_true]
  rfl

/-- A byte of a send goes to the end of the transmit path. -/
theorem deliver_toPath {x : Transfer} {s : State} (h : toTransmitPath s.cfg x = true) (i : Nat) (v : Byte) :
    deliver x i v s = { s with line := { s.line with txBytes := s.line.txBytes ++ [v] } } := if_pos h

/-- A byte of a copy goes to its place in memory. -/
theorem deliver_toMemory {x : Transfer} {s : State} (h : ¬ toTransmitPath s.cfg x = true) (i : Nat) (v : Byte) :
    deliver x i v s = memWrite (x.dst + BitVec.ofNat 32 i) v s := if_neg h

/-- The delivery of a byte neither reads nor changes BT or the moves to come. -/
theorem deliver_bulkAt (x : Transfer) (i : Nat) (v : Byte) (bt : Bt) (ms : List Move) (s : State) :
    deliver x i v (bulkAt bt ms s) = bulkAt bt ms (deliver x i v s) := by
  by_cases h : toTransmitPath s.cfg x = true
  · rw [deliver_toPath h, deliver_toPath (by exact h)]
    rfl
  · rw [deliver_toMemory h, deliver_toMemory (by exact h)]
    rfl

/-- BULK writes the first byte that is not done, and settles the transfer. -/
theorem bulkMove_write_first (x : Transfer) (k m : Nat) (v : Byte) (bt : Bt) (ms : List Move) (s : State) :
    bulkMove (.write k) (bulkAt { bt with active := some ⟨x, heldStates k v m⟩ } ms s) =
      .next (bulkAt (settle x (byteStates (k + 1) m) bt) ms (deliver x k v s)) := by
  have hheld : (heldStates k v m)[k]? = some (.held v) := by simp [heldStates]
  have hbefore : allBefore (fun c => c == .done) k (heldStates k v m) = true := by simp [allBefore, heldStates]
  have hset : (heldStates k v m).set k .done = byteStates (k + 1) m := by
    simp [heldStates, byteStates, List.replicate_succ']
  have hbt : (bulkAt { bt with active := some ⟨x, heldStates k v m⟩ } ms s).bt.active =
      some ⟨x, heldStates k v m⟩ := rfl
  simp only [bulkMove, bulkWrite, hbt, hheld, hbefore, hset, deliver_bulkAt, implies_true, if_true]
  rfl

theorem settle_unfinished (x : Transfer) (k m : Nat) (bt : Bt) :
    settle x (byteStates k (m + 1)) bt = { bt with active := some ⟨x, byteStates k (m + 1)⟩ } :=
  if_neg (by simp [byteStates, List.replicate_succ])

theorem settle_finished (x : Transfer) (k : Nat) (bt : Bt) :
    settle x (byteStates k 0) bt = { bt with active := none, done := bt.queue.isEmpty } :=
  if_pos (by simp [byteStates])

/-- `s` after the first `k` bytes of the transfer have been read and delivered one after the other. -/
def delivered (x : Transfer) : Nat → State → State
  | 0, s => s
  | k + 1, s => deliver x k (memRead (x.src + BitVec.ofNat 32 k) (delivered x k s)) (delivered x k s)

@[simp] theorem delivered_cfg (x : Transfer) (k : Nat) (s : State) : (delivered x k s).cfg = s.cfg := by
  induction k with
  | zero => rfl
  | succ k ih =>
    rw [delivered, deliver]
    split <;> exact ih

section Transfer
variable {x : Transfer} {s : State}

/-- While the transfer is active BULK's moves are inside the contract, as it is itself and all that is queued. -/
theorem stepN_bulkMove {bt : Bt} {bytes : List ByteState} {move : BulkMove} {ms : List Move} {n : Nat} {t : State}
    {r : Result} (ha : admitted s.cfg = true) (hp : (x :: bt.queue).all (transferAllowed s.cfg) = true)
    (h : bulkMove move (bulkAt { bt with active := some ⟨x, bytes⟩ } ms s) = .next t) (hrest : stepN n t = r) :
    stepN (n + 1) (bulkAt { bt with active := some ⟨x, bytes⟩ } (.bulk move :: ms) s) = r :=
  stepN_listed (s := bulkAt { bt with active := some ⟨x, bytes⟩ } (.bulk move :: ms) s) ha hp rfl h hrest

/-- BULK's moves for the first `k` bytes, with `m` more to do. -/
theorem stepN_bytes {bt : Bt} (ha : admitted s.cfg = true) (hp : (x :: bt.queue).all (transferAllowed s.cfg) = true)
    (k m : Nat) (ms : List Move) :
    stepN (2 * k) (bulkAt (settle x (byteStates 0 (k + m)) bt) (copyMoves k ++ ms) s) =
      .next (bulkAt (settle x (byteStates k m) bt) ms (delivered x k s)) := by
  induction k generalizing m ms with
  | zero => rw [Nat.zero_add]; rfl
  | succ k ih =>
    have hmoves : copyMoves (k + 1) ++ ms = copyMoves k ++ .bulk (.read k) :: .bulk (.write k) :: ms := by
      simp [copyMoves, List.range_succ]
    rw [hmoves, Nat.succ_add_eq_add_succ]
    refine stepN_add (ih (m + 1) _) ?_
    rw [← delivered_cfg x k s] at ha hp
    rw [settle_unfinished]
    exact stepN_bulkMove ha hp (bulkMove_read_first ..) (stepN_bulkMove ha hp (bulkMove_write_first ..) rfl)

/-- A whole transfer: BULK takes it off the queue, and its two moves for each byte deliver it and finish it. -/
theorem stepN_transfer {q : List Transfer} {ms : List Move} (ha : admitted s.cfg = true) (hp : pendingAllowed s = true)
    (hactive : s.bt.active = none) (hqueue : s.bt.queue = x :: q)
    (hs : s.schedule = .bulk .start :: (copyMoves x.len.toNat ++ ms)) :
    stepN (1 + 2 * x.len.toNat) s =
      .next (bulkAt { s.bt with queue := q, active := none, done := q.isEmpty } ms (delivered x x.len.toNat s)) := by
  have hall : (x :: q).all (transferAllowed s.cfg) = true := by
    simpa [pendingAllowed, pendingTransfers, hactive, hqueue] using hp
  obtain ⟨m, hm⟩ := Nat.exists_eq_add_of_le' (one_le_len_of_pendingAllowed hp (x := x)
    (by simp [pendingTransfers, hqueue]))
  have hstart : bulkMove .start { s with schedule := copyMoves x.len.toNat ++ ms } =
      .next (bulkAt (settle x (byteStates 0 (x.len.toNat + 0)) { s.bt with queue := q })
        (copyMoves x.len.toNat ++ ms) s) := by
    rw [Nat.add_zero, hm, settle_unfinished, ← hm]
    simp [bulkMove, bulkStart, hactive, hqueue, bulkAt, byteStates]
  rw [Nat.add_comm, ← settle_finished x x.len.toNat { s.bt with queue := q }]
  exact stepN_listed ha hp hs hstart (stepN_bytes ha hall x.len.toNat 0 ms)

end Transfer

/-! ### A copy, as memory shows it (60_exceptions.md R241; 20_memory.md R71) -/

/-- The places of a range are different addresses. -/
theorem add_ofNat_ne {a : BitVec 32} {i k : Nat} (hik : i < k) (hk : k < 2 ^ 32) :
    a + BitVec.ofNat 32 i ≠ a + BitVec.ofNat 32 k := by
  intro h
  have hplace := congrArg BitVec.toNat (add_left_cancel h)
  simp only [BitVec.toNat_ofNat] at hplace
  omega

/-- `m'` is `m`, in canonical form, with the first `k` bytes of the transfer's source at its destination, and every other
byte as it was. -/
structure Copied (x : Transfer) (k : Nat) (m m' : Memory) : Prop where
  wf : Memory.wf m'
  copied : ∀ i, i < k →
    Memory.readAt m' (x.dst + BitVec.ofNat 32 i).toNat = Memory.readAt m (x.src + BitVec.ofNat 32 i).toNat
  others : ∀ a : BitVec 32, (∀ i, i < k → a ≠ x.dst + BitVec.ofNat 32 i) →
    Memory.readAt m' a.toNat = Memory.readAt m a.toNat

section Copy
variable {x : Transfer} {s : State} (hmemory : ¬ toTransmitPath s.cfg x = true)
  (hdisjoint : ¬ rangesMeet x.src x.len.toNat x.dst x.len.toNat) (hwf : Memory.wf s.mem)
include hmemory hdisjoint hwf

/-- A copy whose ranges do not meet never reads a byte it has overwritten. -/
theorem delivered_copied {k : Nat} (hk : k ≤ x.len.toNat) :
    ∃ m, delivered x k s = withMem m s ∧ Copied x k s.mem m := by
  induction k with
  | zero => exact ⟨s.mem, rfl, hwf, nofun, fun _ _ => rfl⟩
  | succ k ih =>
    obtain ⟨m, hdelivered, hwf', hcopied, hothers⟩ := ih (by omega)
    have hlen := x.len.isLt
    have hsource : memRead (x.src + BitVec.ofNat 32 k) (withMem m s) = memRead (x.src + BitVec.ofNat 32 k) s :=
      hothers _ fun i hi h => hdisjoint ⟨k, i, by omega, by omega, h⟩
    rw [delivered, hdelivered, deliver_toMemory (by exact hmemory), hsource]
    refine ⟨_, rfl, wf_memWrite (s := withMem m s) hwf' _ _, fun i hi => ?_, fun a ha => ?_⟩
    · obtain hi | rfl := Nat.lt_succ_iff_lt_or_eq.1 hi
      · exact (memRead_memWrite_other (s := withMem m s) hwf' _ (add_ofNat_ne hi (by omega))).trans (hcopied i hi)
      · exact memRead_memWrite_same (s := withMem m s) hwf' _ _
    · exact (memRead_memWrite_other (s := withMem m s) hwf' _ (ha k (by omega))).trans
        (hothers a fun i hi => ha i (by omega))

/-- A whole copy. -/
theorem stepN_copy {q : List Transfer} {ms : List Move} (ha : admitted s.cfg = true) (hp : pendingAllowed s = true)
    (hactive : s.bt.active = none) (hqueue : s.bt.queue = x :: q)
    (hs : s.schedule = .bulk .start :: (copyMoves x.len.toNat ++ ms)) : ∃ m,
      stepN (1 + 2 * x.len.toNat) s =
        .next (bulkAt { s.bt with queue := q, active := none, done := q.isEmpty } ms (withMem m s)) ∧
      Copied x x.len.toNat s.mem m := by
  obtain ⟨m, hdelivered, hcopied⟩ := delivered_copied hmemory hdisjoint hwf le_rfl
  exact ⟨m, hdelivered ▸ stepN_transfer ha hp hactive hqueue hs, hcopied⟩

end Copy

/-! ### The delivery of a captured frame (R200; 20_memory.md R71) -/

/-- The transfer that RECEIVE_FRAME submits: the whole capture buffer to the caller's. -/
def captureCopy (c : Config) (b : BitVec 32) : Transfer := ⟨c.captureAddr, b, c.maxPacketLen⟩

/-- Inside the contract it is a copy whose ranges do not meet: the capture buffer is no source of a send. -/
theorem captureCopy_of_allowed {c : Config} {b : BitVec 32} (hc : 1 ≤ c.maxPacketLen.toNat)
    (h : transferAllowed c (captureCopy c b) = true) :
    ¬ toTransmitPath c (captureCopy c b) = true ∧
      ¬ rangesMeet c.captureAddr c.maxPacketLen.toNat b c.maxPacketLen.toNat := by
  have hinside := (transferAllowed_iff_not_outsideContract hc _).1 h
  have hself : rangesMeet c.captureAddr c.maxPacketLen.toNat c.captureAddr c.maxPacketLen.toNat :=
    ⟨0, 0, hc, hc, rfl⟩
  have hmemory : b ≠ c.tcBase + c.off.axisStatus := fun hb =>
    hinside (.inr (.inr (.inr (.inl ⟨hb, .inr hself⟩))))
  exact ⟨fun ht => hmemory ((toTransmitPath_iff c _).1 ht),
    fun hmeet => hinside (.inr (.inr (.inr (.inr ⟨hmemory, .inr (.inr (.inl hmeet))⟩))))⟩

/-- `s` with SEQ at a phase of RECEIVE_FRAME, these scratch registers, this bulk region, these moves to come and this record:
the form in which the run below names its states. -/
def receiveAt (p : Fin 16) (scratch : Scratch) (bt : Bt) (ms : List Move) (shown : List Event) (s : State) : State :=
  { s with seq := .phase .receiveFrame p, scratch := scratch, bt := bt, schedule := ms, trace := shown }

/-- The bulk region as RECEIVE_FRAME's three writes leave it: the copy of the capture buffer submitted. -/
def copySubmitted (c : Config) (b : BitVec 32) (bt : Bt) : Bt :=
  { bt with
    src := c.captureAddr, dst := b, len := c.maxPacketLen.zeroExtend 32, done := false
    queue := bt.queue ++ [captureCopy c b] }

section Receives
variable {b : BitVec 32} {l : BitVec 16} {s : State} {bt : Bt} {ms : List Move} {scratch : Scratch} {shown : List Event}
  (ha : admitted s.cfg = true) (hp : (pendingTransfers bt).all (transferAllowed s.cfg) = true) (hb : s.busy = true)
  (hl : s.latch = latchOf (.receiveFrame b l))
include ha hp hb hl

/-- ENGINE's step from a phase of RECEIVE_FRAME. -/
theorem stepN_receiveAt {p : Fin 16} {n : Nat} {t : State} {r : Result}
    (h : receiveFrameAccess b l p.val (receiveAt p scratch bt ms shown s) = .next t) (hrest : stepN n t = r) :
    stepN (n + 1) (receiveAt p scratch bt (.engine :: ms) shown s) = r :=
  stepN_engine (i := .receiveFrame b l) (s := receiveAt p scratch bt (.engine :: ms) shown s) ha hp rfl ⟨hb, hl, rfl⟩ h
    hrest

/-- From P4 on, with the copy finished: BT.DONE[0] is read, DATA_READY is reset, and the command completes. -/
theorem stepN_receiveFrame_ends (hdone : bt.done = true) : ∃ shown',
    stepN 2 (receiveAt 4 scratch bt (.engine :: .engine :: ms) shown s) =
      .next (complete (res16 l)
        (receiveAt 5 scratch bt ms shown' { s with tc := { s.tc with dataReady := false } })) := by
  have hread : receiveFrameAccess b l 4 (receiveAt 4 scratch bt (.engine :: ms) shown s) =
      .next (receiveAt 5 scratch bt (.engine :: ms) (.read .done (doneWord bt) :: shown) s) := by
    rw [receiveFrameAccess_waits, if_pos (by exact hdone)]
    rfl
  exact ⟨_, stepN_receiveAt ha hp hb hl hread (stepN_receiveAt ha hp hb hl rfl rfl)⟩

end Receives

/-- From P0 on, with DATA_READY standing and nothing pending: the status read and the three writes that submit the copy. -/
theorem stepN_receiveFrame_submits {b : BitVec 32} {s : State} {ms : List Move} {shown : List Event}
    (ha : admitted s.cfg = true) (hb : s.busy = true) (hl : s.latch = latchOf (.receiveFrame b s.cfg.maxPacketLen))
    (hready : s.tc.dataReady = true) (hactive : s.bt.active = none) (hqueue : s.bt.queue = []) : ∃ scratch shown',
      stepN 4 (receiveAt 0 s.scratch s.bt (List.replicate 4 .engine ++ ms) shown s) =
        .next (receiveAt 4 scratch (copySubmitted s.cfg b s.bt) ms shown' s) := by
  have hp : (pendingTransfers s.bt).all (transferAllowed s.cfg) = true := pendingAllowed_of_none hactive hqueue
  have hroom : pendingCount s.bt < s.cfg.btQueueDepth := by
    obtain ⟨-, -, -, -, -, -, -, -, -, -, -, -, -, hdepth, -⟩ := (admitted_iff s.cfg).1 ha
    rw [pendingCount_eq_zero.2 ⟨hactive, hqueue⟩]
    omega
  exact ⟨_, _, stepN_receiveAt ha hp hb hl (receiveFrameAccess_ready b _ hready) <|
    stepN_receiveAt (bt := s.bt) ha hp hb hl rfl <|
    stepN_receiveAt (bt := { s.bt with src := s.cfg.captureAddr }) ha hp hb hl rfl <|
    stepN_receiveAt (bt := { s.bt with src := s.cfg.captureAddr, dst := b }) ha hp hb hl
      (receiveFrameAccess_submits b hroom) rfl⟩

/-- BULK's moves for the submitted copy, while ENGINE waits at P4: the copy is made and finished, and nothing is pending. -/
theorem stepN_receiveFrame_copies {b : BitVec 32} {s : State} {ms : List Move} {scratch : Scratch} {shown : List Event}
    (ha : admitted s.cfg = true) (hwf : Memory.wf s.mem)
    (hallowed : transferAllowed s.cfg (captureCopy s.cfg b) = true) (hactive : s.bt.active = none)
    (hqueue : s.bt.queue = []) : ∃ m,
      stepN (1 + 2 * s.cfg.maxPacketLen.toNat) (receiveAt 4 scratch (copySubmitted s.cfg b s.bt)
        (.bulk .start :: (copyMoves s.cfg.maxPacketLen.toNat ++ ms)) shown s) =
          .next (receiveAt 4 scratch { copySubmitted s.cfg b s.bt with queue := [], active := none, done := true } ms shown
            (withMem m s)) ∧
      Copied (captureCopy s.cfg b) s.cfg.maxPacketLen.toNat s.mem m := by
  obtain ⟨-, -, hc, -⟩ := (admitted_iff s.cfg).1 ha
  obtain ⟨hmemory, hdisjoint⟩ := captureCopy_of_allowed hc hallowed
  have hqueue' : (copySubmitted s.cfg b s.bt).queue = [captureCopy s.cfg b] :=
    congrArg (· ++ [captureCopy s.cfg b]) hqueue
  have hp : (pendingTransfers (copySubmitted s.cfg b s.bt)).all (transferAllowed s.cfg) = true := by
    simpa [pendingTransfers, copySubmitted, hactive, hqueue] using hallowed
  exact stepN_copy (x := captureCopy s.cfg b) (s := receiveAt 4 scratch _ _ shown s) hmemory hdisjoint hwf ha hp hactive
    hqueue' rfl

/-- Settles O38: the issue and the submission, BULK's copy, and the end of the wait. -/
theorem capturedFrameIsDelivered : Obligations.CapturedFrameIsDelivered := by
  intro b s rest ha hwf hb hready hactive hqueue hallowed hs
  have hl := latch_issue (.receiveFrame b s.cfg.maxPacketLen) s
  obtain ⟨scratch, shown, hsubmits⟩ := stepN_receiveFrame_submits (s := issue (.receiveFrame b s.cfg.maxPacketLen) s)
    (ms := .bulk .start :: (copyMoves s.cfg.maxPacketLen.toNat ++ (.engine :: .engine :: rest)))
    (shown := (issue (.receiveFrame b s.cfg.maxPacketLen) s).trace) ha rfl hl hready hactive hqueue
  obtain ⟨m, hcopies, -, hcopied, hothers⟩ := stepN_receiveFrame_copies
    (s := issue (.receiveFrame b s.cfg.maxPacketLen) s) (ms := .engine :: .engine :: rest) (scratch := scratch)
    (shown := shown) ha hwf hallowed hactive hqueue
  obtain ⟨shown', hends⟩ := stepN_receiveFrame_ends (b := b) (l := s.cfg.maxPacketLen) (ms := rest) (scratch := scratch)
    (shown := shown) (s := withMem m (issue (.receiveFrame b s.cfg.maxPacketLen) s))
    (bt := { copySubmitted s.cfg b s.bt with queue := [], active := none, done := true }) ha rfl rfl hl rfl
  have hrun := stepN_issue ha (pendingAllowed_of_none hactive hqueue) hs hb (receiveFrameStart_full rfl)
    (stepN_add hsubmits (stepN_add hcopies hends))
  have hcount : 8 + 2 * s.cfg.maxPacketLen.toNat = 4 + (1 + 2 * s.cfg.maxPacketLen.toNat + 2) + 1 := by omega
  rw [hcount]
  exact ⟨_, hrun, ⟨rfl, rfl, rfl, rfl⟩, rfl, rfl, rfl, rfl, rfl, hcopied, hothers⟩

end Sys2Proof.Machine
end

section
/-! PROOFS. The family 45_config_accessors: both accessors complete in their issue step with a parameter of the
configuration (45_config_accessors.md R215, R216). -/

namespace Sys2Proof.Machine

/-- A command whose start is a completion ends in its issue step: its record is the issue and the completion, with no access
between them, and nothing but the engine is changed. -/
theorem exec_completes {i : Instr} {v : BitVec 64} {s : State} (hb : s.busy = false)
    (hstart : startOf i (issue i s) = .next (complete v (issue i s))) :
    ∃ t, exec i s = .next t ∧ completedWith v t ∧ onlyEngineChanged s t ∧
      t.trace = .completed t.res :: .issued (encode i) :: s.trace :=
  ⟨_, (exec_idle hb).trans hstart, ⟨rfl, rfl, rfl, rfl⟩, onlyEngineChanged_refl s, rfl⟩

/-- Settles O15: the two words, and each accessor's start, the completion with its parameter. -/
theorem accessorsReturnTheConfiguration : Obligations.AccessorsReturnTheConfiguration :=
  ⟨rfl, rfl, fun _ hb => ⟨exec_completes hb rfl, exec_completes hb rfl⟩⟩

end Sys2Proof.Machine
end

section
/-! PROOFS. The family 60_exceptions: no step faults, the moves of BULK, HOST and LINE and what they leave, how DATA_READY
falls, the wait of SEND_FRAME, and the commands that complete in an infinite run while CLOCK or BULK keeps its duty
(60_exceptions.md R220 to R243). -/

namespace Sys2Proof.Machine

/-! ### A whole send (R241; 20_memory.md R67) -/

/-- The transmit path gets the source bytes in ascending order, and nothing else changes. -/
theorem delivered_toPath {x : Transfer} {s : State} (h : toTransmitPath s.cfg x = true) (k : Nat) :
    delivered x k s = { s with line := { s.line with
      txBytes := s.line.txBytes ++ (List.range k).map fun i => memRead (x.src + BitVec.ofNat 32 i) s } } := by
  induction k with
  | zero => rw [List.range_zero, List.map_nil, List.append_nil, delivered]
  | succ k ih =>
    rw [delivered, deliver_toPath (by rwa [delivered_cfg]), ih, List.range_succ, List.map_append, List.map_singleton,
      ← List.append_assoc]
    rfl

/-- Settles O39: BULK's moves for the one transfer queued, whose bytes all go to the transmit path. -/
theorem sentFrameIsHandedOverInOrder : Obligations.SentFrameIsHandedOverInOrder := by
  intro x s rest ha hactive hqueue hdst hallowed hs
  have hp : pendingAllowed s = true := by simp [pendingAllowed, pendingTransfers, hactive, hqueue, hallowed]
  have hrun := stepN_transfer ha hp hactive hqueue hs
  rw [delivered_toPath ((toTransmitPath_iff s.cfg x).2 hdst)] at hrun
  exact ⟨_, hrun, rfl, rfl, rfl, rfl, fun _ => rfl, rfl, rfl, rfl⟩

/-! ### The moves of BULK (R240, R241) -/

/-- The transfer's destination is the axis/status word. -/
def toPath (c : Config) (x : Transfer) : Prop := x.dst = c.tcBase + c.off.axisStatus

/-- BULK may read byte `i`: it has not been read, and of a send every byte before it has. -/
def MayRead (c : Config) (a : Active) (i : Nat) : Prop :=
  a.bytes[i]? = some .waiting ∧ (toPath c a.xfer → ∀ j, j < i → a.bytes[j]? ≠ some .waiting)

/-- BULK may write byte `i`, which it holds as `b`: of a send every byte before it has been handed over. -/
def MayWrite (c : Config) (a : Active) (i : Nat) (b : Byte) : Prop :=
  a.bytes[i]? = some (.held b) ∧ (toPath c a.xfer → ∀ j, j < i → a.bytes[j]? = some .done)

theorem allBefore_iff (ok : ByteState → Bool) (i : Nat) (bytes : List ByteState) :
    allBefore ok i bytes = true ↔ ∀ j, j < i → ∀ c, bytes[j]? = some c → ok c = true := by
  simp only [allBefore, List.all_eq_true, List.mem_iff_getElem?, List.getElem?_take, Option.ite_none_right_eq_some]
  constructor
  · exact fun h j hj c hc => h c ⟨j, hj, hc⟩
  · rintro h c ⟨j, hj, hc⟩
    exact h j hj c hc

theorem allBefore_read_iff (i : Nat) (bytes : List ByteState) :
    allBefore (fun c => c != .waiting) i bytes = true ↔ ∀ j, j < i → bytes[j]? ≠ some .waiting := by
  simp only [allBefore_iff, bne_iff_ne]
  refine forall₂_congr fun j _ => ⟨fun h hj => h _ hj rfl, ?_⟩
  rintro h c hc rfl
  exact h hc

theorem allBefore_done_iff {i : Nat} {bytes : List ByteState} (hi : i ≤ bytes.length) :
    allBefore (fun c => c == .done) i bytes = true ↔ ∀ j, j < i → bytes[j]? = some .done := by
  simp only [allBefore_iff, beq_iff_eq]
  refine forall₂_congr fun j hj => ?_
  rw [List.getElem?_eq_getElem (hj.trans_le hi)]
  simp

section Moves
variable {s : State} {a : Active} (hactive : s.bt.active = some a) {i : Nat}
include hactive

theorem bulkMove_read_of_may (h : MayRead s.cfg a i) : bulkMove (.read i) s = .next { s with bt := { s.bt with
    active := some ⟨a.xfer, a.bytes.set i (.held (memRead (a.xfer.src + BitVec.ofNat 32 i) s))⟩ } } := by
  simp only [bulkMove, bulkRead, hactive, toTransmitPath_iff, allBefore_read_iff]
  exact if_pos h

theorem bulkMove_read_refused (h : ¬ MayRead s.cfg a i) : bulkMove (.read i) s = .refused .noSuchMove := by
  simp only [bulkMove, bulkRead, hactive, toTransmitPath_iff, allBefore_read_iff]
  exact if_neg h

theorem bulkMove_write_of_may {b : Byte} (h : MayWrite s.cfg a i b) : bulkMove (.write i) s =
    .next { deliver a.xfer i b s with bt := settle a.xfer (a.bytes.set i .done) s.bt } := by
  obtain ⟨hheld, hbefore⟩ := h
  obtain ⟨hi, -⟩ := List.getElem?_eq_some_iff.1 hheld
  simp only [bulkMove, bulkWrite, hactive, hheld, toTransmitPath_iff, allBefore_done_iff hi.le]
  exact if_pos hbefore

theorem bulkMove_write_refused (h : ∀ b, ¬ MayWrite s.cfg a i b) : bulkMove (.write i) s = .refused .noSuchMove := by
  simp only [bulkMove, bulkWrite, hactive]
  split
  · next b hheld =>
    obtain ⟨hi, -⟩ := List.getElem?_eq_some_iff.1 hheld
    simp only [toTransmitPath_iff, allBefore_done_iff hi.le]
    exact if_neg fun hbefore => h b ⟨hheld, hbefore⟩
  · rfl

end Moves

/-- With none active BULK reads and writes nothing. -/
theorem bulkMove_none_active {s : State} (h : s.bt.active = none) (i : Nat) :
    bulkMove (.read i) s = .refused .noSuchMove ∧ bulkMove (.write i) s = .refused .noSuchMove := by
  simp only [bulkMove, bulkRead, bulkWrite, h, and_self]

theorem bulkMove_start {s : State} {x : Transfer} {q : List Transfer} (hqueue : s.bt.queue = x :: q)
    (hactive : s.bt.active = none) : bulkMove .start s = .next { s with bt := { s.bt with
      queue := q, active := some ⟨x, List.replicate x.len.toNat .waiting⟩ } } := by
  simp only [bulkMove, bulkStart, hactive, hqueue]

theorem bulkMove_start_refused {s : State} (h : s.bt.queue = [] ∨ s.bt.active ≠ none) :
    bulkMove .start s = .refused .noSuchMove := by
  simp only [bulkMove, bulkStart]
  split
  · next hactive hqueue => simp [hactive, hqueue] at h
  · rfl

/-- Delivery changes memory and the transmit path's bytes at most. -/
theorem deliver_frame (x : Transfer) (i : Nat) (b : Byte) (s : State) : deliver x i b s = { s with
    mem := (deliver x i b s).mem, line := { s.line with txBytes := (deliver x i b s).line.txBytes } } := by
  unfold deliver
  split <;> rfl

theorem settle_frame (x : Transfer) (bytes : List ByteState) (bt : Bt) : settle x bytes bt =
    { bt with active := (settle x bytes bt).active, done := (settle x bytes bt).done } := by
  unfold settle
  split <;> rfl

/-- The write that leaves no byte to do finishes the transfer. -/
theorem settle_all_done {bytes : List ByteState} (h : ∀ c ∈ bytes, c = .done) (x : Transfer) (bt : Bt) :
    settle x bytes bt = { bt with active := none, done := bt.queue.isEmpty } := if_pos (by simpa using h)

theorem settle_not_done {bytes : List ByteState} (h : ∃ c ∈ bytes, c ≠ .done) (x : Transfer) (bt : Bt) :
    settle x bytes bt = { bt with active := some ⟨x, bytes⟩ } := if_neg (by simpa using h)

/-- Settles O40: BULK's start, its noise, and then its read and its write of byte `i` of the active transfer. -/
theorem bulkMovesOneByteAtATime : Obligations.BulkMovesOneByteAtATime := by
  intro s hwf
  refine ⟨fun x q => bulkMove_start, bulkMove_start_refused, fun v d => rfl, bulkMove_none_active,
    fun a hactive i => ⟨bulkMove_read_of_may hactive, bulkMove_read_refused hactive, fun b h => ?_,
      bulkMove_write_refused hactive⟩⟩
  refine ⟨_, bulkMove_write_of_may hactive h, ?frame, fun hall => ?finishes, fun hleft => ?goesOn, fun hpath => ?send,
    fun hmemory => ?copy⟩
  case frame => rw [deliver_frame, settle_frame]
  case finishes =>
    rw [settle_all_done hall]
    exact ⟨rfl, rfl⟩
  case goesOn =>
    rw [settle_not_done hleft]
    exact ⟨rfl, rfl⟩
  case send =>
    rw [deliver_toPath ((toTransmitPath_iff s.cfg a.xfer).2 hpath)]
    exact ⟨rfl, fun _ => rfl⟩
  case copy =>
    rw [deliver_toMemory (mt (toTransmitPath_iff s.cfg a.xfer).1 hmemory)]
    exact ⟨rfl, memRead_memWrite_same hwf _ b, fun _ => memRead_memWrite_other hwf b⟩

/-! ### HOST's writes (R242) -/

theorem inRegister_iff (c : Config) (a : BitVec 32) :
    inRegister c a = true ↔ ∃ r ∈ allRegs, ∃ k, k < 4 ∧ a = regAddr c r + BitVec.ofNat 32 k := by
  simp only [inRegister, List.any_eq_true, inRange_iff (show 4 ≤ 2 ^ 32 by decide)]

theorem maxPacketLen_le (c : Config) : c.maxPacketLen.toNat ≤ 2 ^ 32 := c.maxPacketLen.isLt.le.trans (by decide)

theorem inCapture_iff (c : Config) (a : BitVec 32) :
    inCapture c a = true ↔ ∃ k, k < c.maxPacketLen.toNat ∧ a = c.captureAddr + BitVec.ofNat 32 k :=
  inRange_iff (maxPacketLen_le c) a

/-- HOST may not write the address: it is a byte of a register, of the capture buffer, or of the buffer of a RECEIVE_FRAME in
flight. -/
def closedToHost (s : State) (a : BitVec 32) : Prop :=
  (∃ r ∈ allRegs, ∃ k, k < 4 ∧ a = regAddr s.cfg r + BitVec.ofNat 32 k) ∨
  (∃ k, k < s.cfg.maxPacketLen.toNat ∧ a = s.cfg.captureAddr + BitVec.ofNat 32 k) ∨
  ∃ (buffer : BitVec 32) (length : BitVec 16) (k : Nat), s.busy = true ∧
    s.latch = latchOf (.receiveFrame buffer length) ∧ k < length.toNat ∧ a = buffer + BitVec.ofNat 32 k

/-- The model's test of the address is this one. -/
theorem closedToHost_iff (s : State) (a : BitVec 32) :
    (inRegister s.cfg a || inCapture s.cfg a || inReceiveBuffer s a) = true ↔ closedToHost s a := by
  simp only [Bool.or_eq_true, inRegister_iff, inCapture_iff, inReceiveBuffer_iff, closedToHost, or_assoc]

theorem hostWriteMove_allowed {s : State} {a : BitVec 32} (h : ¬ closedToHost s a) (b : Byte) :
    hostWriteMove a b s = .next (memWrite a b s) := if_neg (mt (closedToHost_iff s a).1 h)

theorem hostWriteMove_refused {s : State} {a : BitVec 32} (h : closedToHost s a) (b : Byte) :
    hostWriteMove a b s = .refused .hostOutsideContract := if_pos ((closedToHost_iff s a).2 h)

theorem closedToHost_popMove (s : State) (a : BitVec 32) : closedToHost (popMove s) a ↔ closedToHost s a := by
  simp only [closedToHost, popMove_cfg, popMove_busy, popMove_latch]

/-- Settles O54: the step is HOST's write, allowed exactly outside the three ranges. -/
theorem hostWritesOneByteOfMemory : Obligations.HostWritesOneByteOfMemory := by
  intro s a b ha hp hwf hm
  have hstep : step s = hostWriteMove a b (popMove s) := by
    rw [step_eq_takeMove ha hp, hm]
    rfl
  have hread (a' : BitVec 32) : memRead a' (popMove s) = memRead a' s := by rw [memRead, popMove_mem, memRead]
  have hwf' : Memory.wf (popMove s).mem := by rwa [popMove_mem]
  refine ⟨fun hreg hcapture hbuffer => ?_, fun h => ?_⟩
  · have hopen : ¬ closedToHost (popMove s) a := by
      rw [closedToHost_popMove]
      rintro (h | h | h)
      · exact hreg h
      · exact hcapture h
      · exact hbuffer h
    exact ⟨_, hstep.trans (hostWriteMove_allowed hopen b), memRead_memWrite_same hwf' a b,
      fun a' hne => (memRead_memWrite_other hwf' b hne).trans (hread a'), rfl⟩
  · exact hstep.trans (hostWriteMove_refused ((closedToHost_popMove s a).2 h) b)

/-! ### A run of bytes stored (20_memory.md R67, R69) -/

/-- Every byte outside the run reads as before. -/
theorem memRead_memWriteBytes_other {s : State} (hwf : Memory.wf s.mem) (bs : List Byte) {a a' : BitVec 32}
    (h : ∀ k, k < bs.length → a' ≠ a + BitVec.ofNat 32 k) : memRead a' (memWriteBytes a bs s) = memRead a' s := by
  induction bs generalizing a s with
  | nil => rfl
  | cons b bs ih =>
    have hrest (k : Nat) (hk : k < bs.length) : a' ≠ a + 1 + BitVec.ofNat 32 k := by
      have hne := h (k + 1) (Nat.succ_lt_succ hk)
      rwa [Nat.add_comm, BitVec.ofNat_add, ← BitVec.add_assoc] at hne
    have hfirst : a' ≠ a := by simpa using h 0 (Nat.succ_pos _)
    exact (ih (wf_memWrite hwf a b) hrest).trans (memRead_memWrite_other hwf b hfirst)

/-- Byte `k` of the run reads back at its place. -/
theorem memRead_memWriteBytes {s : State} (hwf : Memory.wf s.mem) {bs : List Byte} (hlen : bs.length ≤ 2 ^ 32)
    (a : BitVec 32) {k : Nat} {b : Byte} (hk : bs[k]? = some b) :
    memRead (a + BitVec.ofNat 32 k) (memWriteBytes a bs s) = b := by
  induction bs generalizing a s k with
  | nil => simp at hk
  | cons b' bs ih =>
    rw [List.length_cons] at hlen
    cases k with
    | zero =>
      have hfirst (j : Nat) (hj : j < bs.length) : a + BitVec.ofNat 32 0 ≠ a + 1 + BitVec.ofNat 32 j := by
        have hne := add_ofNat_ne (a := a) (Nat.succ_pos j) (by omega)
        rwa [Nat.succ_eq_add_one, Nat.add_comm j, BitVec.ofNat_add, ← BitVec.add_assoc] at hne
      have hb : b' = b := by simpa using hk
      rw [memWriteBytes, memRead_memWriteBytes_other (wf_memWrite hwf a b') bs hfirst, BitVec.add_zero, hb]
      exact memRead_memWrite_same hwf a b
    | succ k =>
      rw [Nat.add_comm, BitVec.ofNat_add, ← BitVec.add_assoc]
      exact ih (wf_memWrite hwf a b') (by omega) (a + 1) (by simpa using hk)

/-! ### LINE's contract (R235 to R238) -/

theorem lineBound_iff (s : State) : lineBound s = true ↔ s.initDone = true ∧ s.tc.enable.getLsbD 0 = true :=
  Bool.and_eq_true_iff

theorem capturing_iff (s : State) : capturing s = true ↔ ¬ lineBound s = true ∨ s.tc.activateRx.getLsbD 0 = true := by
  simp only [capturing, Bool.or_eq_true, Bool.not_eq_true', Bool.not_eq_true]

/-- LINE may write the capture buffer where no contract holds, or while capture is on and no captured frame waits. -/
theorem mayStage_iff (s : State) : mayStage s = true ↔
    ¬ lineBound s = true ∨ (s.tc.activateRx.getLsbD 0 = true ∧ s.tc.dataReady = false) := by
  simp only [mayStage, Bool.and_eq_true, capturing_iff, Bool.or_eq_true, Bool.not_eq_true', Bool.not_eq_true, or_and_left]

theorem hear_capturing {s : State} (h : capturing s = true) (b : Byte) :
    hear b s = { s with line := { s.line with partialFrame := s.line.partialFrame ++ [b] } } := by
  rw [hear, if_pos h]

theorem hear_off {s : State} (h : ¬ capturing s = true) (b : Byte) :
    hear b s = { s with line := { s.line with partialFrame := [] } } := by
  rw [hear, if_neg h]

/-- LINE stores bytes, if any, in the capture buffer and when it may. -/
theorem lineMove_stores {m : LineMove} {s t : State} (h : lineMove m s = .next t) : t.mem = s.mem ∨
    mayStage s = true ∧ ∃ i bs, i + bs.length ≤ s.cfg.maxPacketLen.toNat ∧
      t.mem = (memWriteBytes (s.cfg.captureAddr + BitVec.ofNat 32 i) bs s).mem := by
  cases m with
  | stageFrame =>
    simp only [lineMove] at h
    split at h <;> cases h
    next hmay =>
    rw [Bool.and_eq_true, decide_eq_true_eq] at hmay
    obtain ⟨hmay, hlen⟩ := hmay
    exact .inr ⟨hmay, 0, s.line.partialFrame, by omega, by simp⟩
  | stage i b =>
    simp only [lineMove] at h
    split at h <;> cases h
    next hmay =>
    rw [Bool.and_eq_true, decide_eq_true_eq] at hmay
    obtain ⟨hmay, hi⟩ := hmay
    exact .inr ⟨hmay, i, [b], hi, rfl⟩
  | flags | ready | response | hear | forget =>
    cases h
    exact .inl rfl
  | unready | sendWord | sendByte | config =>
    simp only [lineMove] at h
    split at h <;> cases h
    exact .inl rfl

/-- What a move of LINE may change of TC under its contract: the flags, of which DATA_READY does not fall, and TC.RX_DATA. -/
structure LineEffect (s t : State) : Prop where
  tc : t.tc = { s.tc with
    sendDone := t.tc.sendDone, dataReady := t.tc.dataReady, sending := t.tc.sending, receiving := t.tc.receiving,
    statusRest := t.tc.statusRest, rxData := t.tc.rxData } := by simp
  dataReady : s.tc.dataReady = true → t.tc.dataReady = true := by simp

theorem lineMove_effect {m : LineMove} {s t : State} (h : lineMove m s = .next t) (hbound : lineBound s = true) :
    LineEffect s t := by
  cases m with
  | ready =>
    cases h
    exact { dataReady := fun _ => rfl }
  | flags | response | hear | forget =>
    cases h
    exact { tc := rfl, dataReady := id }
  | unready | config => simp [lineMove, hbound] at h
  | stageFrame | stage | sendWord | sendByte =>
    simp only [lineMove] at h
    split at h <;> cases h
    exact {}

/-- While capture is off the partly received frame stands or is lost. -/
theorem lineMove_partialFrame {m : LineMove} {s t : State} (h : lineMove m s = .next t) (hoff : ¬ capturing s = true) :
    t.line.partialFrame = s.line.partialFrame ∨ t.line.partialFrame = [] := by
  cases m with
  | hear b =>
    cases h
    exact .inr (if_neg hoff)
  | forget =>
    cases h
    exact .inr rfl
  | flags | ready | response =>
    cases h
    exact .inl rfl
  | stageFrame =>
    simp only [lineMove] at h
    split at h <;> cases h
    exact .inr rfl
  | unready | stage | sendWord | sendByte | config =>
    simp only [lineMove] at h
    split at h <;> cases h
    exact .inl rfl

/-- Where LINE may, it writes any byte of the capture buffer and no other. -/
theorem lineMove_stage {s : State} (hwf : Memory.wf s.mem) (hmay : mayStage s = true) {i : Nat}
    (hi : i < s.cfg.maxPacketLen.toNat) (b : Byte) : ∃ t, lineMove (.stage i b) s = .next t ∧
      t = { s with mem := t.mem } ∧ memRead (s.cfg.captureAddr + BitVec.ofNat 32 i) t = b ∧
      ∀ a, a ≠ s.cfg.captureAddr + BitVec.ofNat 32 i → memRead a t = memRead a s :=
  ⟨_, if_pos (by simp [hmay, hi]), rfl, memRead_memWrite_same hwf _ b, fun _ => memRead_memWrite_other hwf b⟩

/-- The frame is staged from CAPTURE_ADDR on, first byte lowest. -/
theorem lineMove_stageFrame {s : State} (hwf : Memory.wf s.mem) (hmay : mayStage s = true)
    (hlen : s.line.partialFrame.length ≤ s.cfg.maxPacketLen.toNat) : ∃ t, lineMove .stageFrame s = .next t ∧
      t = { s with line := { s.line with partialFrame := [] }, mem := t.mem } ∧
      (∀ k b, s.line.partialFrame[k]? = some b → memRead (s.cfg.captureAddr + BitVec.ofNat 32 k) t = b) ∧
      ∀ a, (∀ k, k < s.line.partialFrame.length → a ≠ s.cfg.captureAddr + BitVec.ofNat 32 k) →
        memRead a t = memRead a s :=
  ⟨_, if_pos (by simp [hmay, hlen]), by rw [memWriteBytes_frame],
    fun _ _ => memRead_memWriteBytes hwf (hlen.trans (maxPacketLen_le _)) _,
    fun _ => memRead_memWriteBytes_other hwf _⟩

/-- LINE stages a frame only where it may, and only one that the capture buffer holds. -/
theorem mayStage_of_stageFrame {s t : State} (h : lineMove .stageFrame s = .next t) :
    mayStage s = true ∧ s.line.partialFrame.length ≤ s.cfg.maxPacketLen.toNat := by
  simp only [lineMove] at h
  split at h <;> cases h
  next hmay => simpa using hmay

/-- No byte outside the capture buffer changes by a move of LINE. -/
theorem lineMove_outsideCapture {m : LineMove} {s t : State} (hwf : Memory.wf s.mem) (h : lineMove m s = .next t)
    {a : BitVec 32} (ha : ∀ k, k < s.cfg.maxPacketLen.toNat → a ≠ s.cfg.captureAddr + BitVec.ofNat 32 k) :
    memRead a t = memRead a s := by
  obtain hmem | ⟨-, i, bs, hlen, hmem⟩ := lineMove_stores h <;> rw [memRead, hmem]
  · rfl
  · refine memRead_memWriteBytes_other hwf bs fun k hk => ?_
    have hne := ha (i + k) (by omega)
    rwa [BitVec.ofNat_add, ← BitVec.add_assoc] at hne

/-- Settles O53: LINE's liberties move by move, and then what any of its moves leaves. -/
theorem lineKeepsItsContract : Obligations.LineKeepsItsContract := by
  intro s hwf contract capture mayWrite frame
  have hbound : lineBound s = true ↔ contract := lineBound_iff s
  have hcapturing : capturing s = true ↔ ¬ contract ∨ capture := by rw [capturing_iff, hbound]
  have hmayWrite : mayStage s = true ↔ mayWrite := by rw [mayStage_iff, hbound]
  have hunbound (h : ¬ contract) : ¬ lineBound s = true := fun hb => h (hbound.1 hb)
  refine ⟨fun _ _ _ _ => rfl, fun _ => rfl, fun _ => rfl, fun b h => ?hears, fun b hc hoff => ?loses, rfl,
    fun i b h hi => lineMove_stage hwf (hmayWrite.2 h) hi b, fun h hlen => lineMove_stageFrame hwf (hmayWrite.2 h) hlen,
    fun w ws h => ?sendWord, fun h => ?noWord, fun b bs h => ?sendByte, fun h => ?noByte,
    fun h => ⟨if_neg (hunbound h), fun v => ?config⟩, fun m t h => ?kept⟩
  case hears => exact congrArg _ (hear_capturing (hcapturing.2 h) b)
  case loses => exact congrArg _ (hear_off (fun hon => (hcapturing.1 hon).elim (absurd hc) hoff) b)
  case sendWord => simp only [lineMove, h]
  case noWord => simp only [lineMove, h]
  case sendByte => simp only [lineMove, h]
  case noByte => simp only [lineMove, h]
  case config =>
    exact ⟨if_neg (hunbound h), if_neg (hunbound h), if_neg (hunbound h), if_neg (hunbound h), if_neg (hunbound h),
      if_neg (hunbound h)⟩
  case kept =>
    refine ⟨lineMove_frame h, fun a ha => lineMove_outsideCapture hwf h ha, ?_, fun hc => ?_⟩
    · rintro rfl
      obtain ⟨hmay, hlen⟩ := mayStage_of_stageFrame h
      obtain ⟨t', h', hframe, hstaged, -⟩ := lineMove_stageFrame hwf hmay hlen
      cases h.symm.trans h'
      exact ⟨by rw [hframe], hstaged⟩
    · have effect := lineMove_effect h (hbound.2 hc)
      refine ⟨effect.tc, effect.dataReady, fun hclosed a => ?_, fun hoff => lineMove_partialFrame h ?_⟩
      · obtain hmem | ⟨hmay, -⟩ := lineMove_stores h
        · rw [memRead, hmem, memRead]
        · obtain hfree | ⟨hon, hnone⟩ := hmayWrite.1 hmay
          · exact absurd hc hfree
          · obtain hoff | hready := hclosed
            · exact absurd hon hoff
            · exact absurd (hnone.symm.trans hready) Bool.false_ne_true
      · exact fun hon => (hcapturing.1 hon).elim (absurd hc) hoff

/-! ### DATA_READY (R238, R239) -/

/-- Of a command's accesses two change DATA_READY: P5 of RECEIVE_FRAME, and P8 of RECEIVE_RESPONSE when the read clears it. -/
theorem exec_dataReady {i : Instr} {p : Fin 16} {s t : State} (hphase : atPhase i p s) (h : exec i s = .next t) :
    t.tc.dataReady = s.tc.dataReady ∨ s.seq = .phase .receiveFrame 5 ∨
      s.seq = .phase .receiveResponse 8 ∧ s.cfg.respReadClearsReady = true := by
  cases i with
  | beginInit v =>
    obtain ⟨-, hready, -⟩ := beginChangesOnlyTheSixRegisters v s t h
    exact .inl hready
  | sendFrame b l =>
    obtain ⟨htc, -⟩ := sendFrameChangesOnlyTheSubmission b l s t h
    exact .inl (by rw [htc])
  | sendResponse v =>
    obtain ⟨htc, -⟩ := sendResponseChangesOnlyTheTransmitPath v s t h
    exact .inl (by rw [htc])
  | canStart | handleCollision | backOff | getMaxAttempts | getReceiveTime =>
    obtain ⟨-, htc, -⟩ := readersAndTimersChangeOnlyTheResult _ s t (by simp [Instr.op]) h
    exact .inl (by rw [htc])
  | receiveFrame b l =>
    obtain ⟨-, hready, -⟩ := receiveFrameChangesOnlySubmissionAndReady b l s t h
    exact hready.imp_right .inl
  | receiveResponse =>
    obtain ⟨-, hready | hseq, -⟩ := receiveResponseChangesOnlyCaptureAndMarker s t h
    · exact .inl hready
    · obtain ⟨hb, hl, -⟩ := hphase
      have haccess := (exec_of_atPhase (i := .receiveResponse) (p := 8) ⟨hb, hl, hseq⟩).trans
        (receiveResponseAccess_collects s)
      cases h.symm.trans haccess
      cases hclears : s.cfg.respReadClearsReady
      · exact .inl (by simp)
      · exact .inr (.inr ⟨hseq, rfl⟩)

/-- The issue step leaves the facade. -/
theorem StartNext.tc {i : Instr} {s t : State} (h : StartNext i (issue i s) t) : t.tc = s.tc := by
  cases h <;> rfl

/-- Under LINE's contract DATA_READY falls by an access of ENGINE alone. -/
theorem takeMove_dataReady {m : Move} {s t : State} (h : takeMove m s = .next t) (hbound : lineBound s = true)
    (hready : s.tc.dataReady = true) (hfalls : t.tc.dataReady = false) :
    m = .engine ∧ ∃ i p, atPhase i p s ∧ exec i s = .next t := by
  have hne (hkept : t.tc = s.tc) : False := by
    rw [hkept, hready] at hfalls
    cases hfalls
  obtain ⟨i, hexec, hturn⟩ | ⟨rfl, -⟩ | ⟨w, e, -, -, -, rfl⟩ | ⟨a, b, -, h⟩ | ⟨l, -, h⟩ | ⟨b, -, h⟩ | ⟨d, -, h⟩ |
    ⟨-, rfl⟩ := takeMove_cases h
  · obtain ⟨-, hstart⟩ | ⟨p, hb, hl, hseq, -⟩ := exec_next_cases hexec
    · exact (hne (startOf_next hstart).tc).elim
    · obtain ⟨hm, -⟩ | ⟨-, -, hb', -⟩ := hturn
      · exact ⟨hm, i, p, ⟨hb, hl, hseq⟩, hexec⟩
      · exact absurd (hb'.symm.trans hb) Bool.false_ne_true
  · exact (hne rfl).elim
  · exact (hne rfl).elim
  · exact (hne (by rw [hostWriteMove_next h, memWrite_tc])).elim
  · exact absurd (hfalls.symm.trans ((lineMove_effect h hbound).dataReady hready)) Bool.false_ne_true
  · exact (hne (by rw [bulkMove_frame h])).elim
  · unfold clockMove at h
    split at h <;> cases h
    exact (hne rfl).elim
  · exact (hne rfl).elim

/-- Settles O52: LINE's contract leaves DATA_READY, and of ENGINE's accesses two let it fall. -/
theorem dataReadyFallsOnlyByTheEngine : Obligations.DataReadyFallsOnlyByTheEngine := by
  intro s t hinit henable hready hstep hfalls
  obtain ⟨-, -, hmove⟩ := step_next hstep
  obtain ⟨hm, i, p, hphase, hexec⟩ :=
    takeMove_dataReady hmove (by simp [lineBound, hinit, henable]) (by rwa [popMove_tc]) hfalls
  obtain hkept | hfell := exec_dataReady hphase hexec
  · rw [popMove_tc, hready, hfalls] at hkept
    cases hkept
  · rw [popMove_seq, popMove_cfg] at hfell
    exact ⟨hm, hfell⟩

/-! ### The wait of SEND_FRAME (R224) -/

/-- Settles O22, by induction on the number of steps: each is a status read that leaves SEND_FRAME at P0. -/
theorem sendFrameHangsWhileSending : Obligations.SendFrameHangsWhileSending := by
  intro b l s n hphase hsending
  induction n generalizing s with
  | zero => exact ⟨s, rfl, hphase, rfl, rfl, rfl, rfl⟩
  | succ n ih =>
    have hread := (exec_of_atPhase hphase).trans (sendFrameAccess_sample b l s)
    rw [if_pos hsending] at hread
    obtain ⟨hb, hl, -⟩ := hphase
    obtain ⟨t, hrun, hkept⟩ := ih { readStatus s with seq := .phase .sendFrame 0 } ⟨hb, hl, rfl⟩ hsending
    exact ⟨t, execSteps_of_exec hread hrun, hkept⟩

/-! ### No step faults (R220) -/

/-- The command in flight, and the phase it stands at. -/
theorem MachineInv.exists_atPhase {s : State} (h : MachineInv s) (hb : s.busy = true) : ∃ i p, atPhase i p s ∧
    p.val < phaseCount i.op ∧ (inBoundedPoll (.phase i.op p) = true → s.scratch.cnt < s.cfg.pollBound) := by
  obtain ⟨-, hengine, -⟩ := h
  cases hseq : s.seq with
  | idle =>
    simp only [seqInv, hseq] at hengine
    exact absurd (hengine.symm.trans hb) Bool.false_ne_true
  | phase op p =>
    obtain ⟨-, -, hp, ⟨i, hl, rfl⟩, hcnt⟩ := (seqInv_phase hseq).1 hengine
    exact ⟨i, p, ⟨hb, hl, hseq⟩, hp, hcnt⟩

/-- The phase of the command in flight, when the latch is known. -/
theorem MachineInv.exists_atPhase_of_latch {s : State} {i : Instr} (h : MachineInv s) (hb : s.busy = true)
    (hl : s.latch = latchOf i) : ∃ p, atPhase i p s := by
  obtain ⟨j, p, ⟨-, hl', hseq⟩, -⟩ := h.exists_atPhase hb
  cases latchOf_inj (hl.symm.trans hl')
  exact ⟨p, hb, hl, hseq⟩

theorem submitThen_ne_fault (v : BitVec 32) (k : State → State) (s : State) (f : Fault) :
    submitThen v k s ≠ .fault f := by
  unfold submitThen
  split <;> nofun

theorem startOf_ne_fault (i : Instr) (s : State) (f : Fault) : startOf i s ≠ .fault f := by
  cases i <;> nofun

/-- Every phase that an operation's pseudocode labels has its access. -/
theorem accessOf_ne_fault (s : State) (f : Fault) : ∀ i p, p < phaseCount i.op → accessOf i p s ≠ .fault f
  | .sendFrame _ _, 3, _ => submitThen_ne_fault _ (fun t => complete 0 { t with pendingSend := true }) s f
  | .receiveFrame _ _, 3, _ => submitThen_ne_fault _ (goTo .receiveFrame 4) s f
  | .beginInit _, 0, _ | .beginInit _, 1, _ | .beginInit _, 2, _ | .beginInit _, 3, _ | .beginInit _, 4, _
  | .beginInit _, 5, _ | .beginInit _, 6, _ | .beginInit _, 7, _ | .canStart, 0, _ | .sendFrame _ _, 0, _
  | .sendFrame _ _, 1, _ | .sendFrame _ _, 2, _ | .receiveFrame _ _, 0, _ | .receiveFrame _ _, 1, _
  | .receiveFrame _ _, 2, _ | .receiveFrame _ _, 4, _ | .receiveFrame _ _, 5, _ | .receiveResponse, 0, _
  | .receiveResponse, 1, _ | .receiveResponse, 2, _ | .receiveResponse, 3, _ | .receiveResponse, 4, _
  | .receiveResponse, 5, _ | .receiveResponse, 6, _ | .receiveResponse, 7, _ | .receiveResponse, 8, _
  | .receiveResponse, 9, _ | .receiveResponse, 10, _ | .sendResponse _, 0, _ | .sendResponse _, 1, _
  | .handleCollision, 0, _ | .handleCollision, 1, _ | .handleCollision, 2, _ => nofun

theorem exec_ne_fault_of_idle {i : Instr} {s : State} (hb : s.busy = false) (f : Fault) : exec i s ≠ .fault f := by
  rw [exec_idle hb]
  exact startOf_ne_fault i _ f

theorem lineMove_ne_fault (m : LineMove) (s : State) (f : Fault) : lineMove m s ≠ .fault f := by
  cases m with
  | flags | ready | response | hear | forget => nofun
  | unready | stageFrame | stage | sendWord | sendByte | config =>
    simp only [lineMove]
    split <;> nofun

theorem bulkMove_ne_fault (m : BulkMove) (s : State) (f : Fault) : bulkMove m s ≠ .fault f := by
  cases m with
  | start =>
    simp only [bulkMove, bulkStart]
    split <;> nofun
  | read i =>
    simp only [bulkMove, bulkRead]
    split
    · split <;> nofun
    · nofun
  | write i =>
    simp only [bulkMove, bulkWrite]
    split
    · split
      · split <;> nofun
      · nofun
    · nofun
  | noise v d => nofun

/-- From a state that meets the invariant ENGINE's turn is an access of the command in flight, or nothing. -/
theorem engineTurn_ne_fault {s : State} (h : MachineInv s) (f : Fault) : engineTurn s ≠ .fault f := by
  by_cases hb : s.busy = true
  · obtain ⟨i, p, ⟨-, hl, hseq⟩, hp, -⟩ := h.exists_atPhase hb
    rw [engineTurn_of_latch hb hl, exec_atPhase hb hl hseq]
    exact accessOf_ne_fault s f i p hp
  · rw [engineTurn, if_neg hb]
    nofun

theorem issueTurn_ne_fault (w : DWord) (s : State) (f : Fault) : issueTurn w s ≠ .fault f := by
  unfold issueTurn
  split
  · nofun
  · next hb =>
    split
    · exact exec_ne_fault_of_idle (by simpa using hb) f
    · nofun

theorem takeMove_ne_fault {s : State} (h : MachineInv s) (m : Move) (f : Fault) : takeMove m s ≠ .fault f := by
  cases m with
  | engine => exact engineTurn_ne_fault h f
  | issue w => exact issueTurn_ne_fault w s f
  | hostWrite a b =>
    simp only [takeMove, hostWriteMove]
    split <;> nofun
  | line m => exact lineMove_ne_fault m s f
  | bulk m => exact bulkMove_ne_fault m s f
  | clock d =>
    simp only [takeMove, clockMove]
    split <;> nofun
  | reset => nofun

theorem step_ne_fault {s : State} (h : MachineInv s) (f : Fault) : step s ≠ .fault f := by
  rw [step_eq_turnOf, turnOf]
  split
  · split
    · exact takeMove_ne_fault (machineInv_popMove h) _ f
    · nofun
  · nofun

/-- A command that is no longer in flight has completed, and the last thing shown of it is its result. -/
theorem exec_completed {i : Instr} {s t : State} (h : exec i s = .next t) (hb : t.busy = false) :
    t.resValid = true ∧ t.seq = .idle ∧ ∃ shown, t.trace = .completed t.res :: shown := by
  obtain ⟨-, h⟩ | ⟨p, ⟨hb', -⟩, h⟩ := exec_next h
  · cases h with
    | ends v => exact ⟨rfl, rfl, _, rfl⟩
    | goes | delays | sends => cases hb
  · cases h with
    | goes q effect => exact absurd (hb.symm.trans (effect.busy.trans hb')) Bool.false_ne_true
    | ends v effect => exact ⟨rfl, rfl, _, rfl⟩

/-- Settles O47: of the moves only ENGINE's can fault, where SEQ names no phase of the latched command. -/
theorem engineRaisesNothing : Obligations.EngineRaisesNothing :=
  ⟨fun _ f h => step_ne_fault h f, fun _ _ _ => exec_completed⟩

/-! ### A command that never completes in an infinite run (R243) -/

theorem turnOf_machineInv {m : Move} {s t : State} (h : turnOf m s = .next t) (hs : MachineInv s) : MachineInv t := by
  obtain ⟨ha, hp, hmove⟩ := turnOf_next h
  exact takeMove_machineInv hmove ha hp hs

theorem turnOf_now {m : Move} {s t : State} (h : turnOf m s = .next t) : s.now.toNat ≤ t.now.toNat := by
  obtain ⟨-, -, hmove⟩ := turnOf_next h
  obtain hnow | ⟨d, -, hnow⟩ := takeMove_now hmove
  · rw [hnow]
  · omega

/-- An access goes on inside its operation, later or by a loop of R51, or ends the command with a value. -/
theorem AccessNext.goes_or_ends {op : Op} {p : Nat} {s t : State} (h : AccessNext op p s t) :
    (t.busy = s.busy ∧ t.latch = s.latch ∧
      ∃ q : Fin 16, t.seq = .phase op q ∧ (p < q.val ∨ (op, p, q.val) ∈ loops)) ∨
      t.busy = false ∧ t.resValid = true := by
  cases h with
  | goes q effect poll inside forward => exact .inl ⟨effect.busy, effect.latch, q, rfl, forward⟩
  | ends v effect => exact .inr ⟨rfl, rfl⟩

/-- What a turn but the reset does to a command in flight: ENGINE's is the access of its phase, and any other leaves it where
it stood. -/
theorem turnOf_access_or_standsStill {m : Move} {s t : State} {i : Instr} {p : Fin 16} (h : turnOf m s = .next t)
    (hr : m ≠ .reset) (hs : atPhase i p s) : accessOf i p.val s = .next t ∨ m ≠ .engine ∧ StandsStill s t := by
  obtain ⟨hb, hl, hseq⟩ := hs
  by_cases he : m = .engine
  · subst he
    obtain ⟨-, -, hmove⟩ := turnOf_next h
    rw [takeMove, engineTurn_of_latch hb hl, exec_atPhase hb hl hseq] at hmove
    exact .inl hmove
  · exact .inr ⟨he, turnOf_standsStill h he hr hb⟩

/-- A turn but the reset leaves a command in flight, or completes it with a value. -/
theorem turnOf_inFlight_or_completes {m : Move} {s t : State} {i : Instr} (h : turnOf m s = .next t) (hr : m ≠ .reset)
    (hinv : MachineInv s) (hb : s.busy = true) (hl : s.latch = latchOf i) :
    (t.busy = true ∧ t.latch = latchOf i) ∨ t.busy = false ∧ t.resValid = true := by
  obtain ⟨p, hs⟩ := hinv.exists_atPhase_of_latch hb hl
  obtain haccess | ⟨-, hstill⟩ := turnOf_access_or_standsStill h hr hs
  · obtain ⟨hb', hl', -⟩ | hends := (accessOf_next haccess).goes_or_ends
    · exact .inl ⟨hb'.trans hb, hl'.trans hl⟩
    · exact .inr hends
  · exact .inl ⟨hstill.busy.trans hb, hstill.latch.trans hl⟩

/-- From step `n` of the run on the command is in flight for ever. -/
def InFlightForEver (i : Instr) (n : Nat) (run : Nat → State) : Prop :=
  ∀ k, n ≤ k → MachineInv (run k) ∧ (run k).busy = true ∧ (run k).latch = latchOf i

/-- From step `n` of the run on the command never stands at the phase. -/
def NeverAt (i : Instr) (n : Nat) (run : Nat → State) (p : Fin 16) : Prop := ∀ k, n ≤ k → ¬ atPhase i p (run k)

/-- Whatever loop leaves the phase leads back to it (R51). -/
def LoopsOnlyBack (i : Instr) (p : Fin 16) : Prop := ∀ q : Fin 16, (i.op, p.val, q.val) ∈ loops → q = p

/-- BEGIN's one loop (R51). -/
theorem loop_beginInit : ∀ p q : Fin 16, (Op.beginInit, p.val, q.val) ∈ loops → p = 1 ∧ q = 1 := by decide

/-- HANDLE_COLLISION's one loop. -/
theorem loop_handleCollision : ∀ p q : Fin 16, (Op.handleCollision, p.val, q.val) ∈ loops → p = 2 ∧ q = 2 := by
  decide

/-- RECEIVE_FRAME's one loop. -/
theorem loop_receiveFrame : ∀ p q : Fin 16, (Op.receiveFrame, p.val, q.val) ∈ loops → p = 4 ∧ q = 4 := by decide

/-- The loops of RECEIVE_RESPONSE: its three bounded polls, and the window's from P7 to P6. -/
theorem loop_receiveResponse : ∀ p q : Fin 16, (Op.receiveResponse, p.val, q.val) ∈ loops →
    (p = 2 ∨ p = 3 ∨ p = 4) ∧ q = p ∨ p = 7 := by decide

/-- A command in flight stands at some phase, so it is not in flight for ever if, from the last phase down, it never stands
at one. -/
theorem InFlightForEver.elim {run : Nat → State} {n : Nat} {i : Instr} (hF : InFlightForEver i n run)
    (hphases : ∀ p, (∀ q, p < q → NeverAt i n run q) → NeverAt i n run p) : False := by
  have hnever : ∀ p, NeverAt i n run p := fun p => wellFounded_gt.induction p fun p ih => hphases p ih
  obtain ⟨hinv, hb, hl⟩ := hF n le_rfl
  obtain ⟨p, hs⟩ := hinv.exists_atPhase_of_latch hb hl
  exact hnever p n le_rfl hs

section Run
variable {moves : Nat → Move} {run : Nat → State} {n : Nat} {i : Instr} (hI : InfiniteRun moves run)
include hI

theorem run_machineInv {k : Nat} (hinv : MachineInv (run n)) (hk : n ≤ k) : MachineInv (run k) := by
  induction k, hk using Nat.le_induction with
  | base => exact hinv
  | succ k _ ih => exact turnOf_machineInv (hI k) ih

theorem run_now_le {j k : Nat} (hk : j ≤ k) : (run j).now.toNat ≤ (run k).now.toNat := by
  induction k, hk using Nat.le_induction with
  | base => exact le_rfl
  | succ k _ ih => exact ih.trans (turnOf_now (hI k))

/-- A command in flight completes, or is in flight for ever. -/
theorem completesFrom_or_inFlightForEver (hR : NoResetFrom n moves) (hinv : MachineInv (run n))
    (hb : (run n).busy = true) (hl : (run n).latch = latchOf i) : CompletesFrom n run ∨ InFlightForEver i n run := by
  by_cases hall : ∀ k, n ≤ k → (run k).busy = true ∧ (run k).latch = latchOf i
  · exact .inr fun k hk => ⟨run_machineInv hI hinv hk, hall k hk⟩
  · simp only [not_forall, exists_prop] at hall
    obtain ⟨hm, hleft⟩ := Nat.find_spec hall
    have hbefore (k : Nat) (hk : n ≤ k) (hkm : k < Nat.find hall) : (run k).busy = true ∧ (run k).latch = latchOf i :=
      by_contra fun h => Nat.find_min hall hkm ⟨hk, h⟩
    have hne : n ≠ Nat.find hall := fun h => hleft (h ▸ ⟨hb, hl⟩)
    obtain ⟨m, hm'⟩ := Nat.exists_eq_add_of_lt (lt_of_le_of_ne hm hne)
    rw [hm'] at hleft hbefore
    obtain ⟨hb', hl'⟩ := hbefore (n + m) (by omega) (by omega)
    obtain hflight | ⟨hdone, hvalid⟩ := turnOf_inFlight_or_completes (hI (n + m)) (hR _ (by omega))
      (run_machineInv hI hinv (by omega)) hb' hl'
    · exact absurd hflight hleft
    · refine .inl ⟨n + m + 1, by omega, hdone, hvalid, fun k hk hkm => ?_⟩
      rw [hl]
      exact hbefore k hk hkm

variable (hE : EngineGoesOn moves) (hR : NoResetFrom n moves) (hF : InFlightForEver i n run)
include hE hR hF

/-- The access of the phase comes, and leads to a phase of the same command, later or by a loop. -/
theorem next_phase {k : Nat} {p : Fin 16} (hk : n ≤ k) (hs : atPhase i p (run k)) : ∃ m q, k ≤ m ∧
    StandsStill (run k) (run m) ∧ atPhase i p (run m) ∧ accessOf i p.val (run m) = .next (run (m + 1)) ∧
    atPhase i q (run (m + 1)) ∧ (p < q ∨ (i.op, p.val, q.val) ∈ loops) := by
  obtain ⟨m, hkm, hstill, hm, hexec, -⟩ := access_comes hI hE hR hk hs
  have haccess := (exec_of_atPhase hm).symm.trans hexec
  obtain ⟨-, hb, hl⟩ := hF (m + 1) (by omega)
  obtain ⟨-, -, q, hseq, hforward⟩ | ⟨hdone, -⟩ := (accessOf_next haccess).goes_or_ends
  · exact ⟨m, q, hkm, hstill, hm, haccess, ⟨hb, hl, hseq⟩, hforward⟩
  · exact absurd (hdone.symm.trans hb) Bool.false_ne_true

section Phase
variable {p : Fin 16} (hlater : ∀ q, p < q → NeverAt i n run q)
include hlater

/-- A phase that no loop leaves. -/
theorem neverAt_of_no_loop (hloops : ∀ q : Fin 16, (i.op, p.val, q.val) ∉ loops) : NeverAt i n run p := by
  intro k hk hs
  obtain ⟨m, q, hkm, -, -, -, hq, hpq | hloop⟩ := next_phase hI hE hR hF hk hs
  · exact hlater q hpq (m + 1) (by omega) hq
  · exact hloops q hloop

/-- A phase whose one loop leads back to it: its next access leads there again. -/
theorem returns_of_loop (hloops : LoopsOnlyBack i p) {k : Nat} (hk : n ≤ k) (hs : atPhase i p (run k)) : ∃ m, k ≤ m ∧
    StandsStill (run k) (run m) ∧ atPhase i p (run m) ∧ accessOf i p.val (run m) = .next (run (m + 1)) ∧
    atPhase i p (run (m + 1)) := by
  obtain ⟨m, q, hkm, hstill, hm, haccess, hq, hpq | hloop⟩ := next_phase hI hE hR hF hk hs
  · exact absurd hq (hlater q hpq (m + 1) (by omega))
  · exact ⟨m, hkm, hstill, hm, haccess, hloops q hloop ▸ hq⟩

/-- A bounded poll, by induction on the reads left. -/
theorem neverAt_of_poll {c : Tc → Bool} {next : State → State} (hpoll : Polls i p c next)
    (hbounded : inBoundedPoll (.phase i.op p) = true) (hends : ∀ t, (next t).seq ≠ .phase i.op p)
    (hloops : LoopsOnlyBack i p) : NeverAt i n run p := by
  intro k hk hs
  generalize hd : (run k).cfg.pollBound - (run k).scratch.cnt = d
  induction d using Nat.strong_induction_on generalizing k with
  | _ d ih =>
    obtain ⟨m, hkm, hstill, hm, haccess, hagain⟩ := returns_of_loop hI hE hR hF hlater hloops hk hs
    by_cases hlast : c (run m).tc = true ∨ (run m).scratch.cnt + 1 = (run m).cfg.pollBound
    · rw [hpoll.access_ends hlast, Host.Outcome.next.injEq] at haccess
      obtain ⟨-, -, hseq⟩ := hagain
      exact hends _ (haccess ▸ hseq)
    · obtain ⟨hc, hbound⟩ := not_or.1 hlast
      obtain ⟨-, -, hseq⟩ := hm
      obtain ⟨⟨-, hengine, -⟩, -⟩ := hF m (by omega)
      obtain ⟨-, -, -, -, hcnt⟩ := (seqInv_phase hseq).1 hengine
      have hcnt := hcnt hbounded
      rw [hpoll.access_repeats hseq (by simpa using hc) hbound, Host.Outcome.next.injEq] at haccess
      refine ih _ ?_ (m + 1) (by omega) hagain rfl
      rw [← haccess, pollStatus_scratch, pollStatus_cfg, ← hd, ← hstill.cfg, ← hstill.scratch]
      simp only
      omega

end Phase
end Run

/-! ### CLOCK's duty (R243 (a)) -/

/-- NOW reaches every value that its 64 bits can show. -/
theorem ClockDuty.reaches {run : Nat → State} (h : ClockDuty run) {d : Nat} (hd : d < 2 ^ 64) (k : Nat) :
    ∃ m, k ≤ m ∧ d ≤ (run m).now.toNat := by
  by_cases hpassed : d ≤ (run k).now.toNat
  · exact ⟨k, le_rfl, hpassed⟩
  · obtain ⟨m, hkm, hm⟩ := h k (d - (run k).now.toNat) (by omega)
    exact ⟨m, hkm, by omega⟩

/-- A wait does not last for ever if each time the command stands at its phase it comes to stand there again, with the same
deadline, only by way of a step before that deadline. -/
theorem neverAt_of_deadline {moves : Nat → Move} {run : Nat → State} {n : Nat} {i : Instr} {p : Fin 16}
    (hI : InfiniteRun moves run) (hclock : ClockDuty run) (deadline : Scratch → Nat)
    (hfits : ∀ k, n ≤ k → atPhase i p (run k) → deadline (run k).scratch < 2 ^ 64)
    (hreturns : ∀ k, n ≤ k → atPhase i p (run k) → ∃ m k', k ≤ m ∧ m < k' ∧
      (run m).now.toNat < deadline (run k).scratch ∧ atPhase i p (run k') ∧
      deadline (run k').scratch = deadline (run k).scratch) : NeverAt i n run p := by
  intro k hk hs
  have hfar (j : Nat) : ∃ k', k ≤ k' ∧ j ≤ k' ∧ atPhase i p (run k') ∧
      deadline (run k').scratch = deadline (run k).scratch := by
    induction j with
    | zero => exact ⟨k, le_rfl, Nat.zero_le k, hs, rfl⟩
    | succ j ih =>
      obtain ⟨k', hkk', hj, hs', hdeadline⟩ := ih
      obtain ⟨m, k'', hkm, hmk, -, hs'', hsame⟩ := hreturns k' (by omega) hs'
      exact ⟨k'', by omega, by omega, hs'', hsame.trans hdeadline⟩
  obtain ⟨j, -, hpassed⟩ := hclock.reaches (hfits k hk hs) k
  obtain ⟨k', hkk', hj, hs', hdeadline⟩ := hfar j
  obtain ⟨m, -, hkm, -, hbefore, -⟩ := hreturns k' (by omega) hs'
  have hnow := run_now_le hI (show j ≤ m by omega)
  omega

/-- The deadline of DelayUs(DLY). -/
def delayEnd (x : Scratch) : Nat := x.t0.toNat + x.dly.toNat

/-- The end of RECEIVE_RESPONSE's window. -/
def windowEnd (x : Scratch) : Nat := x.t0.toNat + responsePollBoundUs

section Timed
variable {moves : Nat → Move} {run : Nat → State} {n : Nat} {i : Instr} (hI : InfiniteRun moves run)
  (hE : EngineGoesOn moves) (hR : NoResetFrom n moves) (hF : InFlightForEver i n run) (hclock : ClockDuty run)
  (hfits : ∀ k, n ≤ k → waitFits (run k))
include hI hE hR hF hclock hfits

/-- A delay: before its end the phase repeats with nothing changed, and from then on it does not. -/
theorem neverAt_of_delay {p : Fin 16} (hlater : ∀ q, p < q → NeverAt i n run q) (hloops : LoopsOnlyBack i p)
    (hwaits : ∀ s, s.now.toNat < delayEnd s.scratch → accessOf i p.val s = .next (goTo i.op p s))
    (hends : ∀ s t, delayEnd s.scratch ≤ s.now.toNat → accessOf i p.val s = .next t → ¬ atPhase i p t)
    (hwidth : ∀ s, atPhase i p s → waitFits s → delayEnd s.scratch < 2 ^ 64) : NeverAt i n run p := by
  refine neverAt_of_deadline hI hclock delayEnd (fun k hk hs => hwidth _ hs (hfits k hk)) fun k hk hs => ?_
  obtain ⟨m, hkm, hstill, -, haccess, hagain⟩ := returns_of_loop hI hE hR hF hlater hloops hk hs
  have hbefore : (run m).now.toNat < delayEnd (run m).scratch :=
    Nat.lt_of_not_le fun hpassed => hends _ _ hpassed haccess hagain
  rw [hwaits _ hbefore, Host.Outcome.next.injEq] at haccess
  refine ⟨m, m + 1, hkm, Nat.lt_succ_self m, hstill.scratch ▸ hbefore, hagain, ?_⟩
  rw [← haccess, goTo_scratch, hstill.scratch]

end Timed

/-! ### RECEIVE_RESPONSE's window (R226) -/

theorem receiveResponseAccess_passed {s : State} (h : windowEnd s.scratch ≤ s.now.toNat) :
    receiveResponseAccess 7 s = .next (goTo .receiveResponse 10 s) :=
  congrArg _ (if_pos ((elapsed_iff _ s).2 h))

theorem receiveResponseAccess_waits {s : State} (h : s.now.toNat < windowEnd s.scratch) :
    receiveResponseAccess 7 s = .next (goTo .receiveResponse 6 s) :=
  congrArg _ (if_neg fun he => Nat.not_le.2 h ((elapsed_iff _ s).1 he))

section Window
variable {moves : Nat → Move} {run : Nat → State} {n k : Nat} (hI : InfiniteRun moves run) (hE : EngineGoesOn moves)
  (hR : NoResetFrom n moves) (hF : InFlightForEver .receiveResponse n run)
  (hlater : ∀ q, 7 < q → NeverAt .receiveResponse n run q) (hk : n ≤ k)
include hI hE hR hF hlater hk

/-- P7 leads to P6 while the window is open. -/
theorem window_stays_open (hs : atPhase .receiveResponse 7 (run k)) : ∃ m, k ≤ m ∧
    (run m).now.toNat < windowEnd (run k).scratch ∧ atPhase .receiveResponse 6 (run (m + 1)) ∧
    windowEnd (run (m + 1)).scratch = windowEnd (run k).scratch := by
  obtain ⟨m, q, hkm, hstill, -, haccess, ⟨hb, hl, -⟩, -⟩ := next_phase hI hE hR hF hk hs
  have hopen : (run m).now.toNat < windowEnd (run m).scratch := by
    refine Nat.lt_of_not_le fun hpassed => ?_
    have hnext := Host.Outcome.next.inj (haccess.symm.trans (receiveResponseAccess_passed hpassed))
    exact hlater 10 (by decide) (m + 1) (by omega) ⟨hb, hl, by rw [hnext]; rfl⟩
  have hnext := Host.Outcome.next.inj (haccess.symm.trans (receiveResponseAccess_waits hopen))
  exact ⟨m, hkm, hstill.scratch ▸ hopen, ⟨hb, hl, by rw [hnext]; rfl⟩, by rw [hnext, goTo_scratch, hstill.scratch]⟩

/-- P6 leads to P7 while no response shows. -/
theorem window_sampled (hs : atPhase .receiveResponse 6 (run k)) : ∃ m, k ≤ m ∧
    atPhase .receiveResponse 7 (run (m + 1)) ∧ windowEnd (run (m + 1)).scratch = windowEnd (run k).scratch := by
  obtain ⟨m, q, hkm, hstill, -, haccess, ⟨hb, hl, -⟩, -⟩ := next_phase hI hE hR hF hk hs
  have hnext := Host.Outcome.next.inj (haccess.symm.trans (receiveResponseAccess_ready (run m)))
  have hnone : ¬ (run m).tc.dataReady = true := by
    intro hready
    rw [if_pos hready] at hnext
    exact hlater 8 (by decide) (m + 1) (by omega) ⟨hb, hl, by rw [hnext]; rfl⟩
  rw [if_neg hnone] at hnext
  refine ⟨m, hkm, ⟨hb, hl, by rw [hnext]; rfl⟩, ?_⟩
  rw [hnext, ← hstill.scratch]
  rfl

end Window

/-- So the window does not last for ever. -/
theorem neverAt_of_window {moves : Nat → Move} {run : Nat → State} {n : Nat} (hI : InfiniteRun moves run)
    (hE : EngineGoesOn moves) (hR : NoResetFrom n moves) (hF : InFlightForEver .receiveResponse n run)
    (hclock : ClockDuty run) (hfits : ∀ k, n ≤ k → waitFits (run k))
    (hlater : ∀ q, 7 < q → NeverAt .receiveResponse n run q) : NeverAt .receiveResponse n run 7 := by
  refine neverAt_of_deadline hI hclock windowEnd (fun k hk ⟨_, _, hseq⟩ => ?fits) fun k hk hs => ?returns
  case fits => simpa [waitFits, hseq, windowEnd, Instr.op] using hfits k hk
  case returns =>
    obtain ⟨m, hkm, hopen, hs', hsame⟩ := window_stays_open hI hE hR hF hlater hk hs
    obtain ⟨m', hm', hs'', hsame'⟩ := window_sampled hI hE hR hF hlater (by omega) hs'
    exact ⟨m, m' + 1, hkm, by omega, hopen, hs'', hsame'.trans hsame⟩

section Timed
variable {moves : Nat → Move} {run : Nat → State} {n : Nat} (hI : InfiniteRun moves run) (hE : EngineGoesOn moves)
  (hR : NoResetFrom n moves) (hclock : ClockDuty run) (hfits : ∀ k, n ≤ k → waitFits (run k))
include hI hE hR hclock hfits

theorem begin_not_forever {v : BitVec 8} (hF : InFlightForEver (.beginInit v) n run) : False := by
  refine hF.elim fun p hlater => ?_
  by_cases hp : p = 1
  · subst hp
    refine neverAt_of_delay hI hE hR hF hclock hfits hlater (fun q hq => (loop_beginInit 1 q hq).2)
      (fun s => beginAccess_waits) (fun s t hpassed hnext => ?_) fun s ⟨_, _, hseq⟩ hwidth => ?_
    · cases hnext.symm.trans (beginAccess_elapsed hpassed)
      nofun
    · simpa [waitFits, hseq, delayEnd, Instr.op] using hwidth
  · exact neverAt_of_no_loop hI hE hR hF hlater fun q hq => hp (loop_beginInit p q hq).1

theorem handleCollision_not_forever (hF : InFlightForEver .handleCollision n run) : False := by
  refine hF.elim fun p hlater => ?_
  by_cases hp : p = 2
  · subst hp
    refine neverAt_of_delay hI hE hR hF hclock hfits hlater (fun q hq => (loop_handleCollision 2 q hq).2)
      (fun s => handleCollisionAccess_waits) (fun s t hpassed hnext => ?_) fun s ⟨_, _, hseq⟩ hwidth => ?_
    · cases hnext.symm.trans (handleCollisionAccess_elapsed hpassed)
      nofun
    · simpa [waitFits, hseq, delayEnd, Instr.op] using hwidth
  · exact neverAt_of_no_loop hI hE hR hF hlater fun q hq => hp (loop_handleCollision p q hq).1

theorem receiveResponse_not_forever (hF : InFlightForEver .receiveResponse n run) : False := by
  refine hF.elim fun p hlater => ?_
  by_cases hwindow : p = 7
  · subst hwindow
    exact neverAt_of_window hI hE hR hF hclock hfits hlater
  by_cases hpoll : p = 2 ∨ p = 3 ∨ p = 4
  · have hloops : LoopsOnlyBack .receiveResponse p := fun q hq =>
      ((loop_receiveResponse p q hq).resolve_right hwindow).2
    obtain rfl | rfl | rfl := hpoll
    · exact neverAt_of_poll hI hE hR hF hlater polls_start rfl (by simp) hloops
    · exact neverAt_of_poll hI hE hR hF hlater polls_sent rfl (by simp) hloops
    · exact neverAt_of_poll hI hE hR hF hlater polls_received rfl (by simp) hloops
  · exact neverAt_of_no_loop hI hE hR hF hlater fun q hq =>
      (loop_receiveResponse p q hq).elim (fun ⟨h, _⟩ => hpoll h) hwindow

end Timed

/-- Settles O50: none of the three commands is in flight for ever, as no bounded poll and no timed wait is. -/
theorem clockDutyEndsTheTimedCommands : Obligations.ClockDutyEndsTheTimedCommands := by
  intro moves run n i hI hE hR hclock hinv hfits hi hb hl
  obtain hdone | hF := completesFrom_or_inFlightForEver hI hR hinv hb hl
  · exact hdone
  · have hbusy (k : Nat) (hk : n ≤ k) : (run k).busy = true := by
      obtain ⟨-, hb, -⟩ := hF k hk
      exact hb
    have hfits' (k : Nat) (hk : n ≤ k) : waitFits (run k) := hfits k hk fun j hj _ => hbusy j hj
    cases i with
    | beginInit v => exact (begin_not_forever hI hE hR hclock hfits' hF).elim
    | handleCollision => exact (handleCollision_not_forever hI hE hR hclock hfits' hF).elim
    | receiveResponse => exact (receiveResponse_not_forever hI hE hR hclock hfits' hF).elim
    | _ => simp [Instr.op] at hi

/-! ### BULK's duty (R243 (b)) -/

/-- What a move of BULK does to the pending transfers: they stand, and so does the active one, or the head is finished. -/
structure BulkProgress (bt bt' : Bt) : Prop where
  src : bt'.src = bt.src := by rfl
  pending : (pendingTransfers bt' = pendingTransfers bt ∧ (bt'.active = none → bt.active = none)) ∨
    ∃ x, pendingTransfers bt = x :: pendingTransfers bt'

theorem bulkMove_progress {m : BulkMove} {s t : State} (h : bulkMove m s = .next t) : BulkProgress s.bt t.bt := by
  cases m with
  | start =>
    simp only [bulkMove, bulkStart] at h
    split at h <;> cases h
    next hactive hqueue => exact { pending := .inl ⟨by simp [pendingTransfers, hactive, hqueue], nofun⟩ }
  | read i =>
    simp only [bulkMove, bulkRead] at h
    split at h
    · next a hactive =>
      split at h <;> cases h
      exact { pending := .inl ⟨by simp [pendingTransfers, hactive], nofun⟩ }
    · cases h
  | write i =>
    obtain ⟨a, b, hactive, -, rfl⟩ := bulkWrite_next h
    simp only [settle]
    split
    · exact { pending := .inr ⟨a.xfer, by simp [pendingTransfers, hactive]⟩ }
    · exact { pending := .inl ⟨by simp [pendingTransfers, hactive], nofun⟩ }
  | noise v d =>
    cases h
    exact { pending := .inl ⟨rfl, id⟩ }

/-- While a command is in flight, a move that is neither ENGINE's nor the reset leaves BT or is BULK's. -/
theorem turnOf_bulkProgress {m : Move} {s t : State} (h : turnOf m s = .next t) (he : m ≠ .engine) (hr : m ≠ .reset)
    (hb : s.busy = true) : BulkProgress s.bt t.bt := by
  have hkept (hbt : t.bt = s.bt) : BulkProgress s.bt t.bt := by
    rw [hbt]
    exact { pending := .inl ⟨rfl, id⟩ }
  obtain ⟨-, -, hmove⟩ := turnOf_next h
  obtain ⟨i, h, ⟨hm, -⟩ | ⟨w, -, hb', -⟩⟩ | ⟨rfl, -⟩ | ⟨w, e, -, hb', -⟩ | ⟨a, b, -, h⟩ | ⟨l, -, h⟩ | ⟨b, -, h⟩ |
    ⟨d, -, h⟩ | ⟨hm, -⟩ := takeMove_cases hmove
  · exact absurd hm he
  · exact absurd (hb'.symm.trans hb) Bool.false_ne_true
  · exact hkept rfl
  · exact absurd (hb'.symm.trans hb) Bool.false_ne_true
  · exact hkept (by rw [hostWriteMove_next h, memWrite_bt])
  · exact hkept (by rw [lineMove_frame h])
  · exact bulkMove_progress h
  · unfold clockMove at h
    split at h <;> cases h
    exact hkept rfl
  · exact absurd hm hr

theorem done_iff_nothing_pending {s : State} (h : MachineInv s) : s.bt.done = true ↔ pendingTransfers s.bt = [] := by
  obtain ⟨-, -, hdone, -⟩ := h
  rw [hdone, ← pendingCount_eq_zero, ← length_pendingTransfers, List.length_eq_zero_iff]

theorem BulkProgress.nothing_pending {bt bt' : Bt} (h : BulkProgress bt bt') (hp : pendingTransfers bt = []) :
    pendingTransfers bt' = [] := by
  obtain ⟨hkept, -⟩ | ⟨x, hx⟩ := h.pending
  · exact hkept.trans hp
  · cases hp.symm.trans hx

theorem pendingTransfers_submit (v : BitVec 32) (bt : Bt) :
    pendingTransfers (submit v bt) = pendingTransfers bt ++ [⟨bt.src, bt.dst, v.extractLsb' 0 16⟩] :=
  (List.append_assoc ..).symm

/-! ### The copy of a RECEIVE_FRAME in flight (R200) -/

/-- A RECEIVE_FRAME stands before its submission, with nothing pending and, from P2 on, the capture buffer in BT.SRC. -/
def BeforeCopy (s : State) : Prop := ∃ p : Fin 16, p.val ≤ 3 ∧ s.seq = .phase .receiveFrame p ∧
  pendingTransfers s.bt = [] ∧ (2 ≤ p.val → s.bt.src = s.cfg.captureAddr)

/-- It waits at P4 for the copy `x` it has submitted, the one transfer pending. -/
def AwaitsCopy (x : Transfer) (s : State) : Prop := s.seq = .phase .receiveFrame 4 ∧ pendingTransfers s.bt = [x]

/-- It stands at P4 with its copy finished. -/
def CopyFinished (s : State) : Prop := s.seq = .phase .receiveFrame 4 ∧ pendingTransfers s.bt = []

/-- P4 repeats while the copy is pending. -/
theorem receiveFrameAccess_copying {x : Transfer} {s t : State} {b : BitVec 32} {l : BitVec 16}
    (h : receiveFrameAccess b l 4 s = .next t) (hinv : MachineInv s) (hs : AwaitsCopy x s) :
    AwaitsCopy x t ∧ t.bt = s.bt := by
  obtain ⟨hseq, hpending⟩ := hs
  have hdone : ¬ s.bt.done = true := fun hdone => by
    cases hpending.symm.trans ((done_iff_nothing_pending hinv).1 hdone)
  have hnext := Host.Outcome.next.inj (h.symm.trans (receiveFrameAccess_waits b l s))
  rw [if_neg hdone] at hnext
  subst hnext
  exact ⟨⟨rfl, hpending⟩, rfl⟩

/-- P4 leads to P5 once the copy is finished. -/
theorem receiveFrameAccess_finished {s t : State} {b : BitVec 32} {l : BitVec 16}
    (h : receiveFrameAccess b l 4 s = .next t) (hinv : MachineInv s) (hs : CopyFinished s) :
    t.seq = .phase .receiveFrame 5 := by
  obtain ⟨-, hpending⟩ := hs
  have hnext := Host.Outcome.next.inj (h.symm.trans (receiveFrameAccess_waits b l s))
  rw [if_pos ((done_iff_nothing_pending hinv).2 hpending)] at hnext
  rw [hnext]

/-- Of the accesses before P4 the first, if it does not end the command, and the next two submit nothing; P3 submits the
copy. -/
theorem receiveFrameAccess_beforeCopy {s t : State} {b : BitVec 32} {l : BitVec 16} {p : Nat} (hp : p ≤ 3)
    (h : receiveFrameAccess b l p s = .next t) (hb : t.busy = true) (hquiet : pendingTransfers s.bt = [])
    (hsrc : 2 ≤ p → s.bt.src = s.cfg.captureAddr) :
    BeforeCopy t ∨ ∃ dst, AwaitsCopy ⟨t.cfg.captureAddr, dst, l⟩ t := by
  match p, hp with
  | 0, _ =>
    rw [receiveFrameAccess_sample, Host.Outcome.next.injEq] at h
    subst h
    split at hb
    · next hready =>
      rw [if_pos hready]
      exact .inl ⟨1, by decide, rfl, hquiet, nofun⟩
    · cases hb
  | 1, _ =>
    cases h
    exact .inl ⟨2, by decide, rfl, hquiet, fun _ => rfl⟩
  | 2, _ =>
    cases h
    exact .inl ⟨3, by decide, rfl, hquiet, fun _ => hsrc le_rfl⟩
  | 3, _ =>
    obtain ⟨-, rfl⟩ := submitThen_next (k := goTo .receiveFrame 4) h
    refine .inr ⟨s.bt.dst, rfl, (pendingTransfers_submit (lenWord l) s.bt).trans ?_⟩
    rw [hquiet, lenWord_low, hsrc (by decide)]
    rfl

section Turn
variable {m : Move} {s t : State} {b : BitVec 32} {l : BitVec 16} (h : turnOf m s = .next t) (hr : m ≠ .reset)
  (hb : s.busy = true) (hl : s.latch = latchOf (.receiveFrame b l))
include h hr hb hl

/-- A turn is the access of the phase, or at most progress of BULK's. -/
theorem receiveFrame_turn {p : Fin 16} (hseq : s.seq = .phase .receiveFrame p) :
    receiveFrameAccess b l p.val s = .next t ∨ StandsStill s t ∧ BulkProgress s.bt t.bt :=
  (turnOf_access_or_standsStill (i := .receiveFrame b l) h hr ⟨hb, hl, hseq⟩).imp_right
    fun ⟨he, hstill⟩ => ⟨hstill, turnOf_bulkProgress h he hr hb⟩

theorem BeforeCopy.turn (hs : BeforeCopy s) (hb' : t.busy = true) :
    BeforeCopy t ∨ ∃ dst, AwaitsCopy ⟨t.cfg.captureAddr, dst, l⟩ t := by
  obtain ⟨p, hp, hseq, hquiet, hsrc⟩ := hs
  obtain haccess | ⟨hstill, hbulk⟩ := receiveFrame_turn h hr hb hl hseq
  · exact receiveFrameAccess_beforeCopy hp haccess hb' hquiet hsrc
  · refine .inl ⟨p, hp, hstill.seq.trans hseq, hbulk.nothing_pending hquiet, fun h2 => ?_⟩
    rw [hbulk.src, hstill.cfg, hsrc h2]

theorem AwaitsCopy.turn {x : Transfer} (hs : AwaitsCopy x s) (hinv : MachineInv s) :
    (AwaitsCopy x t ∧ (t.bt.active = none → s.bt.active = none)) ∨ CopyFinished t := by
  have hs' := hs
  obtain ⟨hseq, hpending⟩ := hs'
  obtain haccess | ⟨hstill, hbulk⟩ := receiveFrame_turn h hr hb hl hseq
  · obtain ⟨hawaits, hbt⟩ := receiveFrameAccess_copying haccess hinv hs
    exact .inl ⟨hawaits, hbt ▸ id⟩
  · obtain ⟨hkept, hactive⟩ | ⟨y, hy⟩ := hbulk.pending
    · exact .inl ⟨⟨hstill.seq.trans hseq, hkept.trans hpending⟩, hactive⟩
    · exact .inr ⟨hstill.seq.trans hseq, (List.cons.inj (hpending.symm.trans hy)).2.symm⟩

theorem CopyFinished.turn (hs : CopyFinished s) (hinv : MachineInv s) :
    CopyFinished t ∨ t.seq = .phase .receiveFrame 5 := by
  have hs' := hs
  obtain ⟨hseq, hpending⟩ := hs'
  obtain haccess | ⟨hstill, hbulk⟩ := receiveFrame_turn h hr hb hl hseq
  · exact .inr (receiveFrameAccess_finished haccess hinv hs)
  · exact .inl ⟨hstill.seq.trans hseq, hbulk.nothing_pending hpending⟩

end Turn

/-- A copy out of the capture buffer that is inside the contract goes to memory. -/
theorem toTransmitPath_of_captured {c : Config} {dst : BitVec 32} {l : BitVec 16} (ha : admitted c = true)
    (h : transferAllowed c ⟨c.captureAddr, dst, l⟩ = true) : toTransmitPath c ⟨c.captureAddr, dst, l⟩ = false := by
  obtain ⟨-, -, hc, -⟩ := (admitted_iff c).1 ha
  have hinside := (transferAllowed_iff_not_outsideContract hc _).1 h
  obtain ⟨hlen, -⟩ := (transferAllowed_iff c _).1 h
  rw [← Bool.not_eq_true, toTransmitPath_iff]
  exact fun hpath => hinside (.inr (.inr (.inr (.inl ⟨hpath, .inr ⟨0, 0, hlen, hc, rfl⟩⟩))))

section Run
variable {moves : Nat → Move} {run : Nat → State} {n k : Nat} {b : BitVec 32} {l : BitVec 16}
  (hI : InfiniteRun moves run) (hE : EngineGoesOn moves) (hR : NoResetFrom n moves)
  (hF : InFlightForEver (.receiveFrame b l) n run) (hk : n ≤ k)
include hI hE hR hF hk

/-- P5 ends the command. -/
theorem not_at_last : ¬ (run k).seq = .phase .receiveFrame 5 := by
  intro hseq
  obtain ⟨-, hb, hl⟩ := hF k hk
  obtain ⟨m, q, hkm, -, -, haccess, ⟨hb', -⟩, -⟩ := next_phase hI hE hR hF hk (p := 5) ⟨hb, hl, hseq⟩
  have hnext : complete (res16 l) (regWrite .rxData 0 (run m)) = run (m + 1) := Host.Outcome.next.inj haccess
  rw [← hnext] at hb'
  cases hb'

/-- ENGINE's next access at P4 would lead to P5. -/
theorem not_copyFinished : ¬ CopyFinished (run k) := by
  intro hs
  have hstays : ∀ j, k ≤ j → CopyFinished (run j) := by
    intro j hkj
    induction j, hkj using Nat.le_induction with
    | base => exact hs
    | succ j hkj ih =>
      obtain ⟨hinv, hb, hl⟩ := hF j (hk.trans hkj)
      exact (ih.turn (hI j) (hR j (hk.trans hkj)) hb hl hinv).resolve_right
        (not_at_last hI hE hR hF (by omega))
  obtain ⟨hseq, -⟩ := hs
  obtain ⟨-, hb, hl⟩ := hF k hk
  obtain ⟨m, q, hkm, -, -, haccess, -⟩ := next_phase hI hE hR hF hk (p := 4) ⟨hb, hl, hseq⟩
  obtain ⟨hinv, -⟩ := hF m (hk.trans hkm)
  exact not_at_last hI hE hR hF (k := m + 1) (by omega)
    (receiveFrameAccess_finished (b := b) (l := l) haccess hinv (hstays m hkm))

/-- BULK would finish the copy. -/
theorem not_awaitsCopy (hduty : BulkDuty run) {x : Transfer} (hx : toTransmitPath (run k).cfg x = false) :
    ¬ AwaitsCopy x (run k) := by
  intro hs
  have hturn (j : Nat) (hkj : k ≤ j) (ih : AwaitsCopy x (run j)) :
      AwaitsCopy x (run (j + 1)) ∧ ((run (j + 1)).bt.active = none → (run j).bt.active = none) := by
    obtain ⟨hinv, hb, hl⟩ := hF j (hk.trans hkj)
    exact (ih.turn (hI j) (hR j (hk.trans hkj)) hb hl hinv).resolve_right (not_copyFinished hI hE hR hF (by omega))
  have hstays : ∀ j, k ≤ j → AwaitsCopy x (run j) := by
    intro j hkj
    induction j, hkj using Nat.le_induction with
    | base => exact hs
    | succ j hkj ih =>
      obtain ⟨hawaits, -⟩ := hturn j hkj ih
      exact hawaits
  obtain ⟨-, hpending⟩ := hs
  obtain ⟨m, hkm, hactive, hfinished⟩ := hduty k x (by rw [headTransfer, hpending]; rfl) hx
  obtain ⟨-, hnone⟩ := hturn m hkm (hstays m hkm)
  rw [hnone hfinished] at hactive
  cases hactive

end Run

/-- So a RECEIVE_FRAME that has not yet submitted its copy is not in flight for ever. -/
theorem receiveFrame_not_forever {moves : Nat → Move} {run : Nat → State} {n : Nat} {b : BitVec 32} {l : BitVec 16}
    (hI : InfiniteRun moves run) (hE : EngineGoesOn moves) (hR : NoResetFrom n moves) (hduty : BulkDuty run)
    (hF : InFlightForEver (.receiveFrame b l) n run) : ¬ BeforeCopy (run n) := by
  intro hs
  have hstays : ∀ k, n ≤ k → BeforeCopy (run k) := by
    intro k hk
    induction k, hk using Nat.le_induction with
    | base => exact hs
    | succ k hk ih =>
      obtain ⟨-, hb, hl⟩ := hF k hk
      obtain ⟨-, hb', -⟩ := hF (k + 1) (by omega)
      refine (ih.turn (hI k) (hR k hk) hb hl hb').resolve_right fun ⟨dst, hcopy⟩ => ?_
      obtain ⟨ha, hp, -⟩ := turnOf_next (hI (k + 1))
      have hallowed : transferAllowed (run (k + 1)).cfg ⟨(run (k + 1)).cfg.captureAddr, dst, l⟩ = true := by
        obtain ⟨-, hpending⟩ := hcopy
        simpa [pendingAllowed, hpending] using hp
      exact not_awaitsCopy hI hE hR hF (by omega) hduty (toTransmitPath_of_captured ha hallowed) hcopy
  refine hF.elim fun p hlater => ?_
  by_cases hp : p = 4
  · rintro k hk ⟨-, -, hseq⟩
    obtain ⟨q, hq, hseq', -⟩ := hstays k hk
    rw [hseq, Seq.phase.injEq] at hseq'
    omega
  · exact neverAt_of_no_loop hI hE hR hF hlater fun q hq => hp (loop_receiveFrame p q hq).1

/-- Settles O42: RECEIVE_FRAME is not in flight for ever, as its wait at P4 ends with the copy that BULK finishes. -/
theorem bulkDutyEndsTheCopy : Obligations.BulkDutyEndsTheCopy := by
  intro moves run n b l hI hE hR hduty hinv ⟨hb, hl, hseq⟩ hquiet
  obtain hdone | hF := completesFrom_or_inFlightForEver hI hR hinv hb hl
  · exact hdone
  · rw [← length_pendingTransfers, List.length_eq_zero_iff] at hquiet
    exact (receiveFrame_not_forever hI hE hR hduty hF ⟨0, by decide, hseq, hquiet, nofun⟩).elim

end Sys2Proof.Machine
end

section
/-! PROOFS. The family 70_reset_and_hazards: the reset input, and the state after reset (70_reset_and_hazards.md R260 to
R263). -/

namespace Sys2Proof.Machine

/-- A step in which the reset input is asserted does nothing but reset the engine. -/
theorem step_reset {s : State} (ha : admitted s.cfg = true) (hp : pendingAllowed s = true) (hm : nextMove s = .reset) :
    step s = .next (engineReset (popMove s)) := by
  rw [step_eq_takeMove ha hp, hm, takeMove]

/-- Settles O43: `engineReset` clears the engine's fields, and neither it nor the move taken off touches the rest. -/
theorem resetInputClearsTheEngine : Obligations.ResetInputClearsTheEngine := by
  intro s ha hp hm
  have hmem : memoryUnchanged s (engineReset (popMove s)) := fun a =>
    congrArg (Memory.readAt · a.toNat) (popMove_mem s)
  have htrace : (engineReset (popMove s)).trace = .reset :: s.trace := by rw [engineReset_trace, popMove_trace]
  exact ⟨_, step_reset ha hp hm, rfl, rfl, rfl, rfl, rfl, rfl, rfl, rfl, popMove_tc s, popMove_bt s, popMove_line s,
    hmem, popMove_now s, popMove_cfg s, htrace⟩

/-- Settles O44: each value is the one `State.resetWith` gives, and `State.reset` takes the admitted example X1. -/
theorem resetStateIsAsListed : Obligations.ResetStateIsAsListed := by
  refine ⟨fun c => ?_, Config.x1, admitted_x1, rfl⟩
  simp only [State.resetWith, and_self]

end Sys2Proof.Machine
end
